-- ==== Sys2Proof/Word.lean ====
section
/-! DEFINITION. The word types of FILTCORE (00_scope.md R6, R8): the 16-bit sample, output, state and
raw coefficient, and the 32-bit command and response words. -/

namespace Sys2Proof

/-- `u16`: every sample, output, `last` register and raw coefficient (R6 `W`, R9). -/
abbrev U16 := BitVec 16

/-- `u32`: a command word or a response word (R6 `CMD_W` and `RSP_W`, R38). -/
abbrev Word32 := BitVec 32

end Sys2Proof
end

