-- ==== Sys2Proof/Config.lean ====
section
/-! DEFINITION. The implementation parameters of FILTCORE (00_scope.md R6) with this hardware's values. The two
parameters the spec leaves open, `DEPTH` and `LATENCY`, are constants without a body: no proof can
see their value. -/

namespace Sys2Proof.Config

/-- R6 `W`: the width of every sample, output, state register and raw coefficient. -/
abbrev W : Nat := 16

/-- R6 `S`: the basic fixed-point scale. The shift is `S + 1` and the full scale is `2 ^ (S + 1)`. -/
abbrev S : Nat := 6

/-- R6 `ACC_W`: the LPF and HPF multiply-accumulate width. -/
abbrev ACC_W : Nat := 32

/-- R6 `NWIN`: the NLPF precision window in bits. The NLPF full scale is `2 ^ NWIN`. -/
abbrev NWIN : Nat := 6

/-- R6 `NNAT`: the NLPF native product width in bits. -/
abbrev NNAT : Nat := 16

/-- R6 `NACC_W`: the NLPF shifted-sum width. -/
abbrev NACC_W : Nat := 32

/-- R6 `CMD_W`: the command word width. -/
abbrev CMD_W : Nat := 32

/-- R6 `RSP_W`: the response word width. -/
abbrev RSP_W : Nat := 32

/-- R6, R78: the two policies for a negative high-pass difference. -/
inductive HpUnderflow where
  | clamp
  | wrap
  deriving DecidableEq, Repr

/-- R6, R88: the two policies for the 16-bit write-back of NLPF. -/
inductive NlpfNarrow where
  | saturate
  | truncate
  deriving DecidableEq, Repr

/-- R6: this hardware's high-pass policy is CLAMP. -/
abbrev HP_UNDERFLOW : HpUnderflow := .clamp

/-- R6: this hardware's NLPF write-back policy is SATURATE. -/
abbrev NLPF_NARROW : NlpfNarrow := .saturate

/-- How far `DEPTH` exceeds its least value 1. The spec gives no value (R6, D19): a free value, log 3. -/
opaque depthExcess : Nat

/-- R6 `DEPTH`: how many accepted commands FILTCORE may hold without a delivered response; at least 1. -/
def DEPTH : Nat := depthExcess + 1

/-- How far `LATENCY` exceeds its least value 1. The spec gives no value (R6, D19): a free value, log 4. -/
opaque latencyExcess : Nat

/-- R6 `LATENCY`: clock cycles from acceptance to response; at least 1. No rule depends on it (R118), and no
definition of this model reads it (log 4). -/
def LATENCY : Nat := latencyExcess + 1

end Sys2Proof.Config
end

