-- ==== Sys2Proof/Syntax.lean ====
section
/-! DEFINITION. The commands of FILTCORE-CMD v1 as syntax (30_encoding.md R47 to R50, R55): one constructor of
`Instr` for each row of the opcode table, and the raw fields of the CMD format before any check. -/

namespace Sys2Proof

/-- The three filter units (R49). -/
inductive UnitId where
  | lpf
  | hpf
  | nlpf
  deriving DecidableEq, Repr

/-- The four operations every unit takes (R50). -/
inductive Op where
  | init
  | process
  | setc
  | reset
  deriving DecidableEq, Repr

/-- The twelve commands (R55). An operand is DATA, a u16 (R48): a raw coefficient `raw` or a sample `x`. -/
inductive Instr where
  | lpfInit (raw : U16)
  | lpfProcess (x : U16)
  | lpfSetc (raw : U16)
  | lpfReset
  | hpfInit (raw : U16)
  | hpfProcess (x : U16)
  | hpfSetc (raw : U16)
  | hpfReset
  | nlpfInit (raw : U16)
  | nlpfProcess (x : U16)
  | nlpfSetc (raw : U16)
  | nlpfReset
  deriving DecidableEq, Repr

/-- The unit a command is addressed to (R49). -/
def Instr.unit : Instr → UnitId
  | .lpfInit _ | .lpfProcess _ | .lpfSetc _ | .lpfReset => .lpf
  | .hpfInit _ | .hpfProcess _ | .hpfSetc _ | .hpfReset => .hpf
  | .nlpfInit _ | .nlpfProcess _ | .nlpfSetc _ | .nlpfReset => .nlpf

/-- The operation a command asks for (R50). -/
def Instr.op : Instr → Op
  | .lpfInit _ | .hpfInit _ | .nlpfInit _ => .init
  | .lpfProcess _ | .hpfProcess _ | .nlpfProcess _ => .process
  | .lpfSetc _ | .hpfSetc _ | .nlpfSetc _ => .setc
  | .lpfReset | .hpfReset | .nlpfReset => .reset

/-- The raw fields of a command word, whatever they hold (R47). -/
structure CommandFields where
  /-- `cmd_word[31:20]`. -/
  rsv : BitVec 12
  /-- `cmd_word[19:18]`. -/
  unit : BitVec 2
  /-- `cmd_word[17:16]`. -/
  op : BitVec 2
  /-- `cmd_word[15:0]`. -/
  data : U16
  deriving DecidableEq, Repr

/-- Why a command word is illegal: the three classes of R57. -/
inductive Illegal where
  /-- `cmd_word[31:20]` is not 0 (R57 class 1). -/
  | reservedBits
  /-- `UNIT = 0b11` (R57 class 2). -/
  | reservedUnit
  /-- RESET with DATA not 0 (R57 class 3). -/
  | resetWithData
  deriving DecidableEq, Repr

end Sys2Proof
end

