-- ==== Sys2Proof/WellFormed.lean ====
section
/-! DEFINITION. When the raw fields of a command word form a command (30_encoding.md R49, R51), and when a written
operand is one (R60). A term of `Instr` needs no check of its own: an operand is a u16 by its type and a
RESET carries none. -/

namespace Sys2Proof

/-- R51: the reserved field is 0. -/
def CommandFields.rsvClear (f : CommandFields) : Bool := f.rsv == 0

/-- R49: the target unit is not the reserved one, `0b11`. -/
def CommandFields.unitExists (f : CommandFields) : Bool := f.unit != 0b11

/-- R51: RESET, operation `0b11`, has DATA 0. -/
def CommandFields.resetTakesNoData (f : CommandFields) : Bool := f.op != 0b11 || f.data == 0

/-- The fields of a legal command word: the complement of R57. -/
def CommandFields.wellFormed (f : CommandFields) : Bool :=
  f.rsvClear && f.unitExists && f.resetTakesNoData

/-- R60: a written operand lies in 0..65535. It is never wrapped. -/
def operandInRange (n : Nat) : Bool := n < 2 ^ Config.W

end Sys2Proof
end

