-- ==== Sys2Proof/Decode.lean ====
section
/-! DEFINITION. Decoding a command word (30_encoding.md R47 to R51, R55 to R57), total on every 32-bit value and
rejecting each illegal word by the name of its class; after it, the encoder. -/

namespace Sys2Proof

/-- R47: the fields of the single format CMD, read from a command word. -/
def CommandFields.ofWord (w : Word32) : CommandFields where
  rsv := w.extractLsb' 20 12
  unit := w.extractLsb' 18 2
  op := w.extractLsb' 16 2
  data := w.extractLsb' 0 16

/-- R47: `cmd_word = {RSV, UNIT, OP, DATA}`. -/
def CommandFields.toWord (f : CommandFields) : Word32 := f.rsv ++ f.unit ++ f.op ++ f.data

/-- R49: the unit a UNIT code names; `0b11` names none. -/
def UnitId.ofCode (c : BitVec 2) : Option UnitId :=
  if c = 0b00 then some .lpf
  else if c = 0b01 then some .hpf
  else if c = 0b10 then some .nlpf
  else none

/-- R49: the UNIT code of a unit. -/
def UnitId.code : UnitId → BitVec 2
  | .lpf => 0b00
  | .hpf => 0b01
  | .nlpf => 0b10

/-- R50: the operation an OP code names. -/
def Op.ofCode (c : BitVec 2) : Op :=
  if c = 0b00 then .init
  else if c = 0b01 then .process
  else if c = 0b10 then .setc
  else .reset

/-- R50: the OP code of an operation. -/
def Op.code : Op → BitVec 2
  | .init => 0b00
  | .process => 0b01
  | .setc => 0b10
  | .reset => 0b11

/-- The command of a unit, an operation and DATA: the rows of R55. RESET takes no operand. -/
def Instr.ofParts (u : UnitId) (o : Op) (data : U16) : Instr :=
  match u, o with
  | .lpf, .init => .lpfInit data
  | .lpf, .process => .lpfProcess data
  | .lpf, .setc => .lpfSetc data
  | .lpf, .reset => .lpfReset
  | .hpf, .init => .hpfInit data
  | .hpf, .process => .hpfProcess data
  | .hpf, .setc => .hpfSetc data
  | .hpf, .reset => .hpfReset
  | .nlpf, .init => .nlpfInit data
  | .nlpf, .process => .nlpfProcess data
  | .nlpf, .setc => .nlpfSetc data
  | .nlpf, .reset => .nlpfReset

/-- R56, on the fields of a word, with its checks in their order. -/
def decodeFields (f : CommandFields) : Except Illegal Instr :=
  if f.rsv ≠ 0 then .error .reservedBits
  else
    match UnitId.ofCode f.unit with
    | none => .error .reservedUnit
    | some u =>
      if Op.ofCode f.op = .reset ∧ f.data ≠ 0 then .error .resetWithData
      else .ok (Instr.ofParts u (Op.ofCode f.op) f.data)

/-- R56: `decode(w)`. It reads no state. -/
def decode (w : Word32) : Except Illegal Instr := decodeFields (CommandFields.ofWord w)

/-- The DATA field of a command: its operand, or 0 for RESET (R48, R51). -/
def Instr.data : Instr → U16
  | .lpfInit raw | .hpfInit raw | .nlpfInit raw => raw
  | .lpfProcess x | .hpfProcess x | .nlpfProcess x => x
  | .lpfSetc raw | .hpfSetc raw | .nlpfSetc raw => raw
  | .lpfReset | .hpfReset | .nlpfReset => 0

/-- The fields of a command's word (R47). -/
def Instr.fields (i : Instr) : CommandFields where
  rsv := 0
  unit := i.unit.code
  op := i.op.code
  data := i.data

/-- The one command word of a command (R55, R59). -/
def encode (i : Instr) : Word32 := i.fields.toWord

/-- The command word whose low `nbits` bits are those of `w` and whose other bits are 0. A command word is one
32-bit parallel value, bit i on wire i: there is no byte order to apply (20_memory.md R35). -/
def commandWord (nbits w : Nat) : Word32 := BitVec.ofNat Config.CMD_W (w % 2 ^ nbits)

/-- The command the decoder reads from an opcode-table word. -/
def decodeTableWord (nbits w : Nat) : Option Instr :=
  match decode (commandWord nbits w) with
  | .ok i => some i
  | .error _ => none

end Sys2Proof
end

