-- ==== Sys2Proof/Machine/State.lean ====
section
/-! DEFINITION. What FILTCORE holds (10_state.md R17, R29), as plain data, and its value right after hardware reset
(R30, 70_reset_and_hazards.md R109). There is no memory, no program counter and no register file (R18, R19,
20_memory.md R34). -/

namespace Sys2Proof.Machine

/-- The registers of unit LPF (R20), and those of unit HPF: its owned low-pass instance and its `cfg` bit (R23). -/
structure LowPassRegs where
  /-- The coefficient. -/
  alpha : U16
  /-- `one_minus_alpha`, the complementary coefficient. -/
  oma : U16
  /-- `last_output`, the filter state. -/
  last : U16
  /-- Whether the unit has been given a coefficient since the last hardware reset (R21). -/
  cfg : Bool
  deriving DecidableEq, Repr

/-- The registers of unit NLPF (R24). -/
structure NormRegs where
  /-- The normalized coefficient, u6. -/
  alpha : BitVec 6
  /-- `alpha_shift`, u4. Values 11 to 15 are never written (R24). -/
  ash : BitVec 4
  /-- `last_output`, the filter state. -/
  last : U16
  /-- Whether the unit has been given a coefficient since the last hardware reset (R21). -/
  cfg : Bool
  deriving DecidableEq, Repr

/-- What the host drives on the input ports in one port cycle (30_encoding.md R45). -/
structure PortIn where
  rst : Bool
  cmdValid : Bool
  cmdWord : Word32
  rspReady : Bool
  deriving DecidableEq, Repr

/-- What FILTCORE drives on its output ports in one port cycle (R45). `rspWord` is the word it offers: none while
`rsp_valid` is 0, when the spec gives `rsp_word` no value (log 9). -/
structure PortOut where
  cmdReady : Bool
  rspValid : Bool
  rspWord : Option Word32
  errSticky : BitVec 2
  deriving DecidableEq, Repr

/-- The outcome of a command that completes (30_encoding.md R53). The code `0b11` is never produced. -/
inductive Status where
  | ok
  | illegalCommand
  | notConfigured
  deriving DecidableEq, Repr

/-- The two causes of an error (60_exceptions.md R96). -/
inductive ErrorCause where
  | illegalCommand
  | notConfigured
  deriving DecidableEq, Repr

/-- What has become of a command the host issued (R29, 30_encoding.md R46, 70_reset_and_hazards.md R110, R120). -/
inductive Fate where
  /-- Accepted, its response not delivered yet. -/
  | inFlight
  /-- Its response has been delivered. -/
  | answered (response : Word32)
  /-- A hardware reset discarded it: no response of it is ever delivered. -/
  | discarded
  deriving DecidableEq, Repr

/-- A command the host issued. -/
structure Issued where
  word : Word32
  /-- What has become of it. -/
  fate : Fate
  /-- How many hardware resets came before its acceptance. -/
  resets : Nat
  deriving DecidableEq, Repr

/-- FILTCORE's state: the registers of R17, the commands in flight (R29), and four fields of the model's own. -/
structure State where
  /-- Unit LPF. -/
  lpf : LowPassRegs
  /-- Unit HPF: the owned low-pass instance. -/
  hpf : LowPassRegs
  /-- Unit NLPF. -/
  nlpf : NormRegs
  /-- `ERR_STICKY`: bit 0 ILL, bit 1 UNCFG (R26). -/
  errSticky : BitVec 2
  /-- Commands accepted and not yet performed, oldest first (R29). -/
  accepted : List Word32
  /-- Responses produced and not yet delivered, oldest first (R29, 30_encoding.md R46). -/
  responses : List Word32
  /-- The MODEL's own (log 5): what the host drives in the coming port cycles; idle once the list has ended. -/
  inputs : List PortIn
  /-- The MODEL's own (log 6): the responses the host has received, oldest first (70_reset_and_hazards.md R120). -/
  delivered : List Word32
  /-- The MODEL's own (log 6): the commands accepted so far, oldest first, each with what has become of it: the
  programs of R19, as R120 asks about them. -/
  issued : List Issued
  /-- The MODEL's own (log 6): how many hardware resets have come so far. -/
  resets : Nat
  deriving DecidableEq, Repr

/-- The machine stops with no fault, whatever it is given: each error the spec names is completed with a
response, after which the next command is performed normally (60_exceptions.md R100, R104). So there is no
constructor. Safe: nothing is cut short. -/
inductive Fault where
  deriving DecidableEq, Repr

/-- Why a step has no meaning in the model. -/
inductive Refusal where
  /-- Raised by an arm of `exec` whose instruction has no meaning yet; no arm raises it now. Safe: the step stops. -/
  | notModelled (mnemonic : String)
  deriving DecidableEq, Repr

/-- What a step, or a command's meaning, answers. -/
abbrev Result := Host.Outcome State Fault Refusal

/-- Unit LPF or HPF after hardware reset (R30). DESIGN CHOICE (log 1, unsafe): the two coefficient registers, which
the spec says hold no value, are zero. -/
def LowPassRegs.afterReset : LowPassRegs where
  alpha := 0
  oma := 0
  last := 0
  cfg := false

/-- Unit NLPF after hardware reset (R30). DESIGN CHOICE (log 1, unsafe): `alpha` and `ash`, which the spec says hold
no value, are zero. -/
def NormRegs.afterReset : NormRegs where
  alpha := 0
  ash := 0
  last := 0
  cfg := false

/-- The machine right after hardware reset (R30, R109): no command in flight, waiting for one, and a host that
drives nothing yet (log 5) and has issued and received nothing (log 6). -/
def State.reset : State where
  lpf := LowPassRegs.afterReset
  hpf := LowPassRegs.afterReset
  nlpf := NormRegs.afterReset
  errSticky := 0b00
  accepted := []
  responses := []
  inputs := []
  delivered := []
  issued := []
  resets := 0

end Sys2Proof.Machine
end

