-- ==== Sys2Proof/Machine/Flags.lean ====
section
/-! DEFINITION. Status codes, the response word and the sticky error bits (30_encoding.md R52 to R54, 10_state.md R26,
60_exceptions.md R99). FILTCORE has no condition codes (R27). -/

namespace Sys2Proof.Machine

/-- R53: the STATUS code. -/
def Status.code : Status → BitVec 2
  | .ok => 0b00
  | .illegalCommand => 0b01
  | .notConfigured => 0b10

/-- R96: the status an error reports. -/
def ErrorCause.status : ErrorCause → Status
  | .illegalCommand => .illegalCommand
  | .notConfigured => .notConfigured

/-- R26, R99: the bit of `ERR_STICKY` an error sets. -/
def ErrorCause.stickyBit : ErrorCause → BitVec 2
  | .illegalCommand => 0b01
  | .notConfigured => 0b10

/-- R52: `rsp_word = {14'b0, STATUS, RESULT}`. -/
def rspWord (st : Status) (result : U16) : Word32 := (0 : BitVec 14) ++ st.code ++ result

/-- The STATUS field of a response word (R52). -/
def rspStatus (r : Word32) : BitVec 2 := r.extractLsb' 16 2

/-- The RESULT field of a response word (R52). -/
def rspResult (r : Word32) : U16 := r.extractLsb' 0 16

/-- R52: bits 31 to 18 of a response word are always 0. -/
def rspUpperClear (r : Word32) : Bool := r.extractLsb' 18 14 == 0

/-- R54, R96: the response of a command that raises: its STATUS, and RESULT 0. -/
def ErrorCause.rspWord (c : ErrorCause) : Word32 := Machine.rspWord c.status 0

end Sys2Proof.Machine
end

