-- ==== Sys2Proof/Machine/Operands.lean ====
section
/-! DEFINITION. The arithmetic primitives of 00_scope.md R9 to R11, and what a command takes from its operand DATA: the
two pure coefficient functions of 40_coefficient.md (R63, R67). All values are unsigned; arithmetic is exact
until a narrowing primitive is applied. -/

namespace Sys2Proof.Machine

/-- R9 `trunc_N` on a natural number: wraparound modulo `2 ^ n`. -/
def trunc (n v : Nat) : Nat := v % 2 ^ n

/-- R9 `trunc_N` on an integer, negative ones too: the value of `n` bits congruent to `v`. -/
def truncInt (n : Nat) (v : Int) : BitVec n := BitVec.ofInt n v

/-- R9 `sat_N`. -/
def sat (n v : Nat) : Nat := min v (2 ^ n - 1)

/-- How many of the low `n` bits of `v`, from bit `n - 1` down, are zero before the first one. -/
def leadingZeros : Nat → Nat → Nat
  | 0, _ => 0
  | n + 1, v => if v.testBit n then 0 else leadingZeros n v + 1

/-- R11 `clz16`. -/
def clz16 (v : U16) : Nat := leadingZeros 16 v.toNat

/-- R11 `bitwidth16`: the position of the most significant set bit, counting from 1; 0 for 0. -/
def bitwidth16 (v : U16) : Nat := 16 - clz16 v

/-- What `CoeffBasic` gives. -/
structure BasicCoeff where
  alpha : U16
  oma : U16
  deriving DecidableEq, Repr

/-- What `CoeffNorm` gives. -/
structure NormCoeff where
  alpha : BitVec 6
  ash : BitVec 4
  deriving DecidableEq, Repr

/-- R63 `CoeffBasic`. Both values wrap modulo `2 ^ 16`; nothing is checked (R66). -/
def coeffBasic (raw : U16) : BasicCoeff :=
  let alpha : U16 := truncInt Config.W (raw.toNat + 1)
  { alpha := alpha
    oma := truncInt Config.W (2 ^ (Config.S + 1) - (alpha.toNat : Int) - 1) }

/-- R67: how far `CoeffNorm` shifts a raw coefficient down to fit the window. -/
def normShift (raw : U16) : Nat :=
  if bitwidth16 raw > Config.NWIN then bitwidth16 raw - Config.NWIN else 0

/-- R67 `CoeffNorm`. No one is added and no complement is kept (R69). -/
def coeffNorm (raw : U16) : NormCoeff where
  alpha := BitVec.ofNat 6 (raw.toNat >>> normShift raw)
  ash := BitVec.ofNat 4 (normShift raw)

end Sys2Proof.Machine
end

