-- ==== Sys2Proof/Machine/Ops.lean ====
section
/-! DEFINITION. The named operations over the registers that every meaning is written with: the coefficient and state
writes of a unit, `respond` and `raise` (00_scope.md R13), and hardware reset (70_reset_and_hazards.md R109,
R110). There is no return from an error: nothing was redirected (60_exceptions.md R103, R104). -/

namespace Sys2Proof.Machine

/-- Write both basic coefficient registers by `CoeffBasic` and mark the unit configured; `last` is kept (R64, R74, R79). -/
def LowPassRegs.setCoeff (raw : U16) (u : LowPassRegs) : LowPassRegs :=
  { u with alpha := (coeffBasic raw).alpha, oma := (coeffBasic raw).oma, cfg := true }

/-- Write `last` (R72, R75). -/
def LowPassRegs.setLast (v : U16) (u : LowPassRegs) : LowPassRegs := { u with last := v }

/-- Write both NLPF coefficient registers by `CoeffNorm` and mark the unit configured; `last` is kept (R92). -/
def NormRegs.setCoeff (raw : U16) (u : NormRegs) : NormRegs :=
  { u with alpha := (coeffNorm raw).alpha, ash := (coeffNorm raw).ash, cfg := true }

/-- Write `last` (R91, R93). -/
def NormRegs.setLast (v : U16) (u : NormRegs) : NormRegs := { u with last := v }

/-- Write the registers of unit LPF. -/
def State.setLpf (u : LowPassRegs) (s : State) : State := { s with lpf := u }

/-- Write the registers of unit HPF. -/
def State.setHpf (u : LowPassRegs) (s : State) : State := { s with hpf := u }

/-- Write the registers of unit NLPF. -/
def State.setNlpf (u : NormRegs) (s : State) : State := { s with nlpf := u }

/-- Append a response behind those not yet delivered: responses keep acceptance order (20_memory.md R40). -/
def State.pushResponse (r : Word32) (s : State) : State := { s with responses := s.responses ++ [r] }

/-- Set bits of `ERR_STICKY`; no bit is cleared (R99). -/
def State.stick (bits : BitVec 2) (s : State) : State := { s with errSticky := s.errSticky ||| bits }

/-- R13 `respond(result)`: the command ends with STATUS OK and RESULT `result`. -/
def State.respond (result : U16) (s : State) : Result := .next (s.pushResponse (rspWord .ok result))

/-- R13 `raise`, R99, R100: an error. The command writes nothing but its sticky bit and returns one response. The
machine goes on (R104). -/
def State.raise (c : ErrorCause) (s : State) : Result := .next ((s.stick c.stickyBit).pushResponse c.rspWord)

/-- R110: a hardware reset discards a command in flight; one already answered stays answered. -/
def Issued.discard (e : Issued) : Issued := if e.fate = .inFlight then { e with fate := .discarded } else e

/-- R109, R110: hardware reset. Every command in flight is discarded with no response. What the host drives next and
what it has issued and received are the host's, and stay (log 12). -/
def State.hwReset (s : State) : State :=
  { State.reset with
    inputs := s.inputs
    delivered := s.delivered
    issued := s.issued.map Issued.discard
    resets := s.resets + 1 }

end Sys2Proof.Machine
end

