-- ==== Sys2Proof/Machine/LowPass.lean ====
section
/-! DEFINITION. Unit LPF (41_lowpass.md): the shared datapath `LpfStep` (R71) and the four commands (R72 to R75). -/

namespace Sys2Proof.Machine

/-- R71 `LpfStep`: products exact, their sum narrowed to `ACC_W` bits, shifted right by `S + 1`, narrowed to 16 bits. -/
def lpfStep (alpha oma last x : U16) : U16 :=
  let p1 := alpha.toNat * x.toNat
  let p2 := oma.toNat * last.toNat
  let acc := trunc Config.ACC_W (p1 + p2)
  BitVec.ofNat Config.W (trunc Config.W (acc >>> (Config.S + 1)))

/-- The new output of a basic low-pass instance for sample `x`. -/
def LowPassRegs.output (u : LowPassRegs) (x : U16) : U16 := lpfStep u.alpha u.oma u.last x

/-- `lpf.init raw` (R73). -/
def execLpfInit (raw : U16) (s : State) : Result := (s.setLpf ((s.lpf.setCoeff raw).setLast 0)).respond 0

/-- `lpf.process x` (R72). -/
def execLpfProcess (x : U16) (s : State) : Result :=
  if s.lpf.cfg then (s.setLpf (s.lpf.setLast (s.lpf.output x))).respond (s.lpf.output x)
  else s.raise .notConfigured

/-- `lpf.setc raw` (R74). -/
def execLpfSetc (raw : U16) (s : State) : Result := (s.setLpf (s.lpf.setCoeff raw)).respond 0

/-- `lpf.reset` (R75). -/
def execLpfReset (s : State) : Result := (s.setLpf (s.lpf.setLast 0)).respond 0

end Sys2Proof.Machine
end

