-- ==== Sys2Proof/Machine/HighPass.lean ====
section
/-! DEFINITION. Unit HPF (42_highpass.md): it owns one low-pass instance with the same raw coefficient, never inverted
(R82), and outputs the input minus that instance's new output (R77 to R80). -/

namespace Sys2Proof.Machine

/-- R78: the high-pass value. The difference is an exact integer; a negative one is clamped to 0 or wrapped. -/
def highPass (policy : Config.HpUnderflow) (x low : U16) : U16 :=
  let d : Int := (x.toNat : Int) - low.toNat
  if d ≥ 0 then truncInt Config.W d
  else
    match policy with
    | .clamp => 0
    | .wrap => truncInt Config.W d

/-- `hpf.init raw` (R77). -/
def execHpfInit (raw : U16) (s : State) : Result := (s.setHpf ((s.hpf.setCoeff raw).setLast 0)).respond 0

/-- `hpf.process x` (R78). `HPF.last` is written whether or not the difference is clamped. -/
def execHpfProcess (x : U16) (s : State) : Result :=
  if s.hpf.cfg then
    (s.setHpf (s.hpf.setLast (s.hpf.output x))).respond (highPass Config.HP_UNDERFLOW x (s.hpf.output x))
  else s.raise .notConfigured

/-- `hpf.setc raw` (R79). -/
def execHpfSetc (raw : U16) (s : State) : Result := (s.setHpf (s.hpf.setCoeff raw)).respond 0

/-- `hpf.reset` (R80). -/
def execHpfReset (s : State) : Result := (s.setHpf (s.hpf.setLast 0)).respond 0

end Sys2Proof.Machine
end

