-- ==== Sys2Proof/Machine/Normalized.lean ====
section
/-! DEFINITION. Unit NLPF (43_normalized.md): the datapath `PreShift` and `NormStep` (R84 to R89) and the four commands
(R90 to R93). -/

namespace Sys2Proof.Machine

/-- R84: by how many places an operand is shifted right so that its product fits `NNAT` bits. -/
def preShiftAmount (v : U16) : Nat :=
  if Config.NWIN + bitwidth16 v > Config.NNAT then Config.NWIN + bitwidth16 v - Config.NNAT else 0

/-- R84: the shifted operand. With `preShiftAmount` it is `PreShift`. -/
def preShifted (v : U16) : Nat := v.toNat >>> preShiftAmount v

/-- R88: the narrowing of the re-aligned sum to the 16-bit state. -/
def normNarrow (policy : Config.NlpfNarrow) (r : Nat) : U16 :=
  match policy with
  | .saturate => BitVec.ofNat Config.W (sat Config.W r)
  | .truncate => BitVec.ofNat Config.W (trunc Config.W r)

/-- R85, R86: the shifted sum of the two products. -/
def normAcc (alpha : BitVec 6) (ash : BitVec 4) (last x : U16) : Nat :=
  let p1 := trunc Config.NNAT (alpha.toNat * preShifted x)
  let p2 := trunc Config.NNAT ((2 ^ Config.NWIN - alpha.toNat) * preShifted last)
  trunc Config.NACC_W ((p1 <<< ash.toNat) + (p2 <<< ash.toNat))

/-- R89 `NormStep`. The re-alignment uses the input's pre-shift alone, never the state's (R87). -/
def normStep (policy : Config.NlpfNarrow) (alpha : BitVec 6) (ash : BitVec 4) (last x : U16) : U16 :=
  normNarrow policy (normAcc alpha ash last x >>> (Config.NWIN - preShiftAmount x))

/-- The new output of unit NLPF for sample `x`, under this hardware's write-back policy. -/
def NormRegs.output (u : NormRegs) (x : U16) : U16 := normStep Config.NLPF_NARROW u.alpha u.ash u.last x

/-- `nlpf.init raw` (R90). -/
def execNlpfInit (raw : U16) (s : State) : Result := (s.setNlpf ((s.nlpf.setCoeff raw).setLast 0)).respond 0

/-- `nlpf.process x` (R91). -/
def execNlpfProcess (x : U16) (s : State) : Result :=
  if s.nlpf.cfg then (s.setNlpf (s.nlpf.setLast (s.nlpf.output x))).respond (s.nlpf.output x)
  else s.raise .notConfigured

/-- `nlpf.setc raw` (R92). -/
def execNlpfSetc (raw : U16) (s : State) : Result := (s.setNlpf (s.nlpf.setCoeff raw)).respond 0

/-- `nlpf.reset` (R93). -/
def execNlpfReset (s : State) : Result := (s.setNlpf (s.nlpf.setLast 0)).respond 0

end Sys2Proof.Machine
end

