-- ==== Sys2Proof/Machine/Dispatch.lean ====
section
/-! DEFINITION. One arm per command: which meaning each constructor of `Instr` has (30_encoding.md R55). -/

namespace Sys2Proof.Machine

def exec (i : Instr) (s : State) : Host.Outcome State Fault Refusal :=
  match i with
  | .lpfInit raw => Sys2Proof.Machine.execLpfInit raw s
  | .lpfProcess x => Sys2Proof.Machine.execLpfProcess x s
  | .lpfSetc raw => Sys2Proof.Machine.execLpfSetc raw s
  | .lpfReset => Sys2Proof.Machine.execLpfReset s
  | .hpfInit raw => Sys2Proof.Machine.execHpfInit raw s
  | .hpfProcess x => Sys2Proof.Machine.execHpfProcess x s
  | .hpfSetc raw => Sys2Proof.Machine.execHpfSetc raw s
  | .hpfReset => Sys2Proof.Machine.execHpfReset s
  | .nlpfInit raw => Sys2Proof.Machine.execNlpfInit raw s
  | .nlpfProcess x => Sys2Proof.Machine.execNlpfProcess x s
  | .nlpfSetc raw => Sys2Proof.Machine.execNlpfSetc raw s
  | .nlpfReset => Sys2Proof.Machine.execNlpfReset s

end Sys2Proof.Machine
end

