-- ==== Sys2Proof/Machine/Ports.lean ====
section
/-! DEFINITION. The ports (30_encoding.md R45, R46, 70_reset_and_hazards.md R111): what FILTCORE drives on its outputs,
and the handshakes of one port cycle. -/

namespace Sys2Proof.Machine

/-- A cycle in which the host drives nothing. -/
def PortIn.idle : PortIn where
  rst := false
  cmdValid := false
  cmdWord := 0
  rspReady := false

/-- A cycle in which the host only offers the command word `w`. -/
def PortIn.offer (w : Word32) : PortIn := { PortIn.idle with cmdValid := true, cmdWord := w }

/-- A cycle in which the host only takes a response. -/
def PortIn.take : PortIn := { PortIn.idle with rspReady := true }

/-- How many accepted commands have no delivered response yet (R29, R46). -/
def State.held (s : State) : Nat := s.accepted.length + s.responses.length

/-- The output ports in a cycle with inputs `p` (R45, R46, R111). `cmd_ready` is 0 while `DEPTH` commands are held.
DESIGN CHOICE (log 2): otherwise it is 1, since a cycle in which FILTCORE stalls is no step of the model. -/
def State.portOut (p : PortIn) (s : State) : PortOut where
  cmdReady := !p.rst && decide (s.held < Config.DEPTH)
  rspValid := !p.rst && !s.responses.isEmpty
  rspWord := if p.rst then none else s.responses.head?
  errSticky := s.errSticky

/-- Responses come in acceptance order (R46), so the response `r` answers the oldest command in flight. -/
def answerOldest (r : Word32) : List Issued → List Issued
  | [] => []
  | e :: es => if e.fate = .inFlight then { e with fate := .answered r } :: es else e :: answerOldest r es

/-- The oldest response goes to the host (R46). -/
def State.deliver (s : State) : State :=
  match s.responses with
  | [] => s
  | r :: rs =>
    { s with responses := rs, delivered := s.delivered ++ [r], issued := answerOldest r s.issued }

/-- A command word is accepted, behind those accepted before it (R46, 20_memory.md R40). -/
def State.accept (w : Word32) (s : State) : State :=
  { s with accepted := s.accepted ++ [w], issued := s.issued ++ [{ word := w, fate := .inFlight, resets := s.resets }] }

/-- The two handshakes of a cycle (R46): a response is delivered when `rsp_valid` and `rsp_ready` are both 1, a command
is accepted when `cmd_valid` and `cmd_ready` are both 1. `cmd_ready` is that of the state before the delivery
(DESIGN CHOICE, log 8). -/
def State.transfer (p : PortIn) (s : State) : State :=
  let t := if p.rspReady && (s.portOut p).rspValid then s.deliver else s
  if p.cmdValid && (s.portOut p).cmdReady then t.accept p.cmdWord else t

end Sys2Proof.Machine
end

