-- ==== Sys2Proof/Machine/Perform.lean ====
section
/-! DEFINITION. Performing one accepted command (20_memory.md R37, R40), and one port cycle around it
(30_encoding.md R46, 70_reset_and_hazards.md R111). -/

namespace Sys2Proof.Machine

/-- Perform one command word: decode it, on the word alone (R101), and run the command or raise ILLEGAL_COMMAND (R98). -/
def runWord (w : Word32) (s : State) : Result :=
  match decode w with
  | .ok i => exec i s
  | .error _ => s.raise .illegalCommand

/-- Perform the oldest accepted command, if there is one; otherwise wait for one (R109). -/
def performNext (s : State) : Result :=
  match s.accepted with
  | [] => .next s
  | w :: rest => runWord w { s with accepted := rest }

/-- Go on with `f` from a next state; a fault or a refusal stands. -/
def mapNext (f : State → State) : Result → Result
  | .next s => .next (f s)
  | .fault r => .fault r
  | .refused r => .refused r

/-- One port cycle with inputs `p`. Reset wins over everything (R111). Otherwise the oldest accepted command is
performed, then the two handshakes take place, so a command accepted in this cycle is answered in a later one
(`LATENCY` is at least 1; DESIGN CHOICE, log 8). -/
def portCycle (p : PortIn) (s : State) : Result :=
  if p.rst then .next s.hwReset else mapNext (State.transfer p) (performNext s)

end Sys2Proof.Machine
end

