-- ==== Sys2Proof/Machine/Step.lean ====
section
/-! DEFINITION. One step: the next port cycle the host drives, or, once its list has ended, a cycle with idle ports. -/

namespace Sys2Proof.Machine

/-- One step of FILTCORE. A step is a port cycle in which FILTCORE does not stall; it is no count of time (R118, log 2). -/
def step (s : State) : Host.Outcome State Fault Refusal :=
  match s.inputs with
  | [] => performNext s
  | p :: rest => portCycle p { s with inputs := rest }

/-- `s` with the table word `w` as the oldest accepted command, and an idle port cycle before what the host drives
next, so that no hardware reset discards it first: the very next step performs it (log 5). -/
def State.withFetchWord (s : State) (nbits w : Nat) : State :=
  { s with accepted := commandWord nbits w :: s.accepted, inputs := PortIn.idle :: s.inputs }

end Sys2Proof.Machine
end

