-- ==== Sys2Proof/Machine/Assembly.lean ====
section
/-! DEFINITION. The assembler syntax, the two pseudo-instructions and the listing form (30_encoding.md R60 to R62). Text
is a list of characters. What R60 leaves open (white space, labels, digits) is log 11. -/

namespace Sys2Proof.Machine

/-- Why a line does not assemble. -/
inductive AsmError where
  /-- The label before the `:` is empty or holds white space. -/
  | badLabel
  /-- The line names no operation of a unit. -/
  | unknownMnemonic
  /-- `init`, `process` or `setc` without an operand. -/
  | missingOperand
  /-- An operand too many. -/
  | extraOperand
  /-- The operand is neither a decimal number nor `0x` and hexadecimal digits. -/
  | badNumber
  /-- The operand lies outside 0..65535 (R60): never wrapped. -/
  | operandOutOfRange
  deriving DecidableEq, Repr

/-- White space between the parts of a line (DESIGN CHOICE, log 11). -/
def isBlank (c : Char) : Bool := c == ' ' || c == '\t'

/-- The words of a line: its longest runs of characters that are not white space. -/
def words : List Char → List (List Char)
  | [] => []
  | c :: cs =>
    if isBlank c then words cs
    else
      match cs with
      | [] => [[c]]
      | d :: _ =>
        if isBlank d then [c] :: words cs
        else
          match words cs with
          | [] => [[c]]
          | w :: ws => (c :: w) :: ws

/-- What stands before the first `;` (R60: the rest is a comment). -/
def withoutComment (l : List Char) : List Char := l.takeWhile (· != ';')

/-- R60: the optional label, up to the first `:`, is checked and dropped. -/
def withoutLabel (l : List Char) : Except AsmError (List Char) :=
  if l.contains ':' then
    match words (l.takeWhile (· != ':')) with
    | [_] => .ok ((l.dropWhile (· != ':')).drop 1)
    | _ => .error .badLabel
  else .ok l

/-- R60 `unit`. -/
def unitName : UnitId → List Char
  | .lpf => ['l', 'p', 'f']
  | .hpf => ['h', 'p', 'f']
  | .nlpf => ['n', 'l', 'p', 'f']

/-- R60 `op`. -/
def opName : Op → List Char
  | .init => ['i', 'n', 'i', 't']
  | .process => ['p', 'r', 'o', 'c', 'e', 's', 's']
  | .setc => ['s', 'e', 't', 'c']
  | .reset => ['r', 'e', 's', 'e', 't']

/-- R61: the source's name for INIT. -/
def constructName : List Char := ['c', 'o', 'n', 's', 't', 'r', 'u', 'c', 't']

/-- R61: the source's name for SETC. -/
def setCoefficientName : List Char :=
  ['s', 'e', 't', '_', 'c', 'o', 'e', 'f', 'f', 'i', 'c', 'i', 'e', 'n', 't']

/-- The unit a name stands for. -/
def parseUnit (n : List Char) : Option UnitId :=
  if n = unitName .lpf then some .lpf
  else if n = unitName .hpf then some .hpf
  else if n = unitName .nlpf then some .nlpf
  else none

/-- The operation a name stands for, the pseudo-instructions' names among them (R61). -/
def parseOp (n : List Char) : Option Op :=
  if n = opName .init ∨ n = constructName then some .init
  else if n = opName .process then some .process
  else if n = opName .setc ∨ n = setCoefficientName then some .setc
  else if n = opName .reset then some .reset
  else none

/-- R60: `mnemonic := unit '.' op`. -/
def parseMnemonic (m : List Char) : Option (UnitId × Op) :=
  match parseUnit (m.takeWhile (· != '.')), parseOp ((m.dropWhile (· != '.')).drop 1) with
  | some u, some o => some (u, o)
  | _, _ => none

/-- The sixteen digits in the order of their values, in upper case as R62 writes words; the first ten are R60's decimal
ones. Reading and writing both use this row. -/
def digitRow : List Char := "0123456789ABCDEF".toList

/-- The value of a digit in a base up to 16: its place in the row. Hexadecimal digits are taken in either case
(DESIGN CHOICE, log 11). -/
def digitValue (base : Nat) (c : Char) : Option Nat := (digitRow.take base).idxOf? c.toUpper

/-- The number a non-empty run of digits writes, after a number already read. -/
def parseDigits (base : Nat) : Nat → List Char → Option Nat
  | n, [] => some n
  | n, c :: cs =>
    match digitValue base c with
    | some d => parseDigits base (n * base + d) cs
    | none => none

/-- R60 `operand`: decimal, or `0x` and hexadecimal digits. -/
def parseNumber : List Char → Option Nat
  | [] => none
  | '0' :: 'x' :: [] => none
  | '0' :: 'x' :: ds => parseDigits 16 0 ds
  | ds => parseDigits 10 0 ds

/-- R60: an operand outside 0..65535 is an error. -/
def parseOperand (o : List Char) : Except AsmError U16 :=
  match parseNumber o with
  | none => .error .badNumber
  | some n => if operandInRange n then .ok (BitVec.ofNat Config.W n) else .error .operandOutOfRange

/-- R60: `reset` takes no operand, every other operation exactly one. -/
def assembleParts (u : UnitId) (o : Op) (operands : List (List Char)) : Except AsmError Instr :=
  match o, operands with
  | .reset, [] => .ok (Instr.ofParts u .reset 0)
  | .reset, _ :: _ => .error .extraOperand
  | _, [] => .error .missingOperand
  | o, [d] => (parseOperand d).map (Instr.ofParts u o)
  | _, _ :: _ :: _ => .error .extraOperand

/-- R60, R61: the one command a line assembles to. -/
def assembleLine (l : List Char) : Except AsmError Instr :=
  match withoutLabel (withoutComment l) with
  | .error e => .error e
  | .ok rest =>
    match words rest with
    | [] => .error .unknownMnemonic
    | m :: operands =>
      match parseMnemonic m with
      | none => .error .unknownMnemonic
      | some (u, o) => assembleParts u o operands

/-- The digit of a value below 16. -/
def digitChar (n : Nat) : Char := digitRow.getD n '0'

/-- The `k` low hexadecimal digits of `v`, most significant first. -/
def hexDigits : Nat → Nat → List Char
  | 0, _ => []
  | k + 1, v => hexDigits k (v / 16) ++ [digitChar (v % 16)]

/-- R62: a command word in hex. -/
def hexWord (w : Word32) : List Char := ['0', 'x'] ++ hexDigits 8 w.toNat

/-- The decimal digits of `v`, at most `k + 1` of them, with no leading zero. -/
def decimalDigits : Nat → Nat → List Char
  | 0, v => [digitChar (v % 10)]
  | k + 1, v => if v < 10 then [digitChar v] else decimalDigits k (v / 10) ++ [digitChar (v % 10)]

/-- R60: the line of a command, its operand in decimal. -/
def assemblyText (i : Instr) : List Char :=
  let m := unitName i.unit ++ ['.'] ++ opName i.op
  if i.op = .reset then m else m ++ [' '] ++ decimalDigits 4 i.data.toNat

/-- R62: a command's entry in a program listing. -/
def listingLine (i : Instr) : List Char × List Char := (assemblyText i, hexWord (encode i))

end Sys2Proof.Machine
end

