-- ==== Sys2Proof/Safety.lean ====
section
/-! DEFINITION. What counts as a good state and a good run, in the terms the statements use. -/

namespace Sys2Proof.Machine

/-- R66: a raw coefficient that is legal for `CoeffBasic`. -/
abbrev legalRaw (raw : U16) : Prop := raw.toNat ≤ 126

/-- 10_state.md R22 and R32 for unit LPF or HPF. -/
abbrev LowPassRegs.Coherent (u : LowPassRegs) : Prop :=
  (u.cfg = true → u.oma = 127 - u.alpha) ∧ (u.cfg = false → u.last = 0)

/-- 10_state.md R25 and R32 for unit NLPF. -/
abbrev NormRegs.Coherent (u : NormRegs) : Prop :=
  (u.cfg = true → u.ash.toNat ≤ 10 ∧ (0 < u.ash.toNat → 32 ≤ u.alpha.toNat)) ∧ (u.cfg = false → u.last = 0)

/-- The register invariants of 10_state.md, for the three units. -/
abbrev State.Coherent (s : State) : Prop := s.lpf.Coherent ∧ s.hpf.Coherent ∧ s.nlpf.Coherent

/-- 30_encoding.md R46: FILTCORE holds at most `DEPTH` accepted commands without a delivered response. -/
def State.WithinDepth (s : State) : Prop := s.held ≤ Config.DEPTH

/-- 30_encoding.md R52, R53, R54: a response FILTCORE may produce. Its upper bits are 0, STATUS `0b11` is never
produced, and RESULT is 0 with every STATUS but OK. -/
abbrev rspLegal (r : Word32) : Prop :=
  rspUpperClear r = true ∧ rspStatus r ≠ 0b11 ∧ (rspStatus r ≠ 0b00 → rspResult r = 0)

/-- 10_state.md R26: an error response not yet delivered has its sticky bit set. -/
def State.ErrorsRecorded (s : State) : Prop :=
  ∀ r ∈ s.responses, (rspStatus r = 0b01 → s.errSticky.getLsbD 0 = true) ∧
    (rspStatus r = 0b10 → s.errSticky.getLsbD 1 = true)

/-- The same registers of unit LPF or HPF, but for the coefficient registers of an unconfigured unit, which
hold no value (10_state.md R31). -/
def LowPassRegs.Agree (u v : LowPassRegs) : Prop :=
  u.cfg = v.cfg ∧ u.last = v.last ∧ (u.cfg = true → u.alpha = v.alpha ∧ u.oma = v.oma)

/-- The same for unit NLPF (R31). -/
def NormRegs.Agree (u v : NormRegs) : Prop :=
  u.cfg = v.cfg ∧ u.last = v.last ∧ (u.cfg = true → u.alpha = v.alpha ∧ u.ash = v.ash)

/-- Two states that differ at most in the coefficient registers of unconfigured units (R31). -/
def State.Agree (s t : State) : Prop :=
  s.lpf.Agree t.lpf ∧ s.hpf.Agree t.hpf ∧ s.nlpf.Agree t.nlpf ∧ s.errSticky = t.errSticky ∧
    s.accepted = t.accepted ∧ s.responses = t.responses ∧ s.inputs = t.inputs ∧ s.delivered = t.delivered ∧
    s.issued = t.issued ∧ s.resets = t.resets

/-- The same registers of 10_state.md R17, whatever is in flight or at the ports. -/
def State.SameRegs (s t : State) : Prop :=
  s.lpf = t.lpf ∧ s.hpf = t.hpf ∧ s.nlpf = t.nlpf ∧ s.errSticky = t.errSticky

/-- Whether the unit a command is addressed to is configured (R21). -/
def State.configured (s : State) : UnitId → Bool
  | .lpf => s.lpf.cfg
  | .hpf => s.hpf.cfg
  | .nlpf => s.nlpf.cfg

/-- The registers of unit `u` are the same in both states. -/
def State.SameUnit (u : UnitId) (s t : State) : Prop :=
  match u with
  | .lpf => s.lpf = t.lpf
  | .hpf => s.hpf = t.hpf
  | .nlpf => s.nlpf = t.nlpf

/-- 20_memory.md R40: the command words `ws`, performed one after another from `s`, end in `t`. -/
def Performs : List Word32 → State → State → Prop
  | [], s, t => t = s
  | w :: ws, s, t => ∃ m, runWord w s = .next m ∧ Performs ws m t

/-- The host drives no reset in the coming cycles. -/
def State.NoReset (s : State) : Prop := ∀ p ∈ s.inputs, p.rst = false

/-- The script of a host that offers each word once and then takes its response (R46, R120). -/
def hostScript : List Word32 → List PortIn
  | [] => []
  | w :: ws => PortIn.offer w :: PortIn.take :: hostScript ws

/-- 30_encoding.md R46: the host keeps `cmd_word` stable while it is offered and not accepted. An obligation on the
host; the step does not rely on it (log 10). R46 speaks of `cmd_word` only: that `cmd_valid` stays 1 as well, and
that the obligation is lifted when this cycle or the next is a reset, are the model's (DESIGN CHOICE, log 10). -/
def State.HostKeepsOffer (s : State) : Prop :=
  ∀ p q rest, s.inputs = p :: q :: rest → p.rst = false → p.cmdValid = true → (s.portOut p).cmdReady = false →
    q.rst = true ∨ (q.cmdValid = true ∧ q.cmdWord = p.cmdWord)

/-- The words of the commands in flight, oldest first, as the record of issued commands has them. -/
def State.inFlight (s : State) : List Word32 := (s.issued.filter (·.fate = .inFlight)).map (·.word)

/-- The record of issued commands has in flight one command for each pending response and each accepted command, in
order, the accepted ones with their words (R29). -/
def State.RecordMatches (s : State) : Prop :=
  s.inFlight.length = s.held ∧ s.inFlight.drop s.responses.length = s.accepted

/-- The first `n` commands the host issues from `s` on, with what has become of each by `t`. -/
def State.issuedSince (s t : State) (n : Nat) : List Issued := (t.issued.drop s.issued.length).take n

/-- 70_reset_and_hazards.md R120: the program `ws` (10_state.md R19), issued from `s` on, has ended in `t`: its commands
have been issued, and the response to the last one has been delivered. R120 does not speak of a program of no
command: that it has ended at once is the model's (DESIGN CHOICE, log 16). What the host issued after it, and what it drives next, is left open, as the rule leaves it. -/
def State.ProgramEnded (ws : List Word32) (s t : State) : Prop :=
  (s.issuedSince t ws.length).map (·.word) = ws ∧
    ∀ last, (s.issuedSince t ws.length).getLast? = some last → ∃ r, last.fate = .answered r

/-- R120: the final state of the program `ws`, issued from `s` on and as issued by `t`, is that of `e` in the registers of
R17: the state after its last command. The last command's era is the number of hardware resets before its
acceptance. With no reset since `s`, the commands accepted at `s` and the program's own have been performed from
`s` in order (20_memory.md R40); otherwise the program's commands of that era, from the state a hardware
reset leaves (R109), since nothing performed before that reset is left (R110). That a hardware reset does not end a program's sequence of
commands is the model's reading (DESIGN CHOICE, log 6). R120 does not speak of a program of no command: that its final
state is the one after the commands accepted at `s`, even where a hardware reset has since discarded them, is the
model's (DESIGN CHOICE, log 16). -/
def ProgramFinal (ws : List Word32) (s t e : State) : Prop :=
  let program := s.issuedSince t ws.length
  let era := (program.getLast?.map (·.resets)).getD s.resets
  let words := (program.filter (·.resets = era)).map (·.word)
  if era = s.resets then Performs (s.accepted ++ words) s e else Performs words s.hwReset e

/-- What R120 calls the observation of a program. -/
structure Observation where
  /-- Its responses, in order. -/
  responses : List Word32
  /-- `err_sticky` of its final state. -/
  errSticky : BitVec 2
  deriving DecidableEq, Repr

/-- The response a command was answered with. -/
def Issued.response (e : Issued) : Option Word32 :=
  match e.fate with
  | .answered r => some r
  | .inFlight | .discarded => none

/-- R120: the observation of the program `ws` issued from `s` on: its responses by `t`, and `err_sticky` of its
final state `e`. -/
def State.observation (ws : List Word32) (s t e : State) : Observation where
  responses := (s.issuedSince t ws.length).filterMap Issued.response
  errSticky := e.errSticky

/-- 60_exceptions.md R108: a run so far without an error response, and with `err_sticky` clear. DESIGN CHOICE (log 15):
across a hardware reset, an error response delivered before it still counts, and an error whose response it
discarded no longer does. -/
def State.ErrorFree (s : State) : Prop :=
  s.errSticky = 0b00 ∧ ∀ r ∈ s.responses ++ s.delivered, rspStatus r = 0b00

/-- 70_reset_and_hazards.md R113: a command that cannot raise NOT_CONFIGURED in `s`. -/
def State.Ready (s : State) (i : Instr) : Prop := i.op = .process → s.configured i.unit = true

/-- `n` samples `v` fed to a basic low-pass instance, from state `last` (41_lowpass.md R76). -/
def lpfHold (alpha oma v : U16) : Nat → U16 → U16
  | 0, last => last
  | n + 1, last => lpfHold alpha oma v n (lpfStep alpha oma last v)

/-- `n` samples `v` fed to the NLPF datapath, from state `last` (43_normalized.md R95). -/
def normHold (alpha : BitVec 6) (ash : BitVec 4) (v : U16) : Nat → U16 → U16
  | 0, last => last
  | n + 1, last => normHold alpha ash v n (normStep Config.NLPF_NARROW alpha ash last v)

end Sys2Proof.Machine
end

