-- ==== Sys2Proof/Certificates/Slice0/Obligations.lean ====
section
/-! DEFINITION. The statements for the provers. A next state written as a record update says every register the command
writes and, by the fields it does not name, everything it leaves unchanged. FILTCORE has no memory (20_memory.md
R34), so no statement has a memory clause. -/

open Sys2Proof Sys2Proof.Machine

/-! ### Encoding (30_encoding.md, 00_scope.md R11) -/

/-- Every command decodes from its own word, with its operand at every value. -/
def Obligations.EncodedCommandDecodesToItself : Prop :=
  ∀ i : Instr, decode (encode i) = .ok i

/-- Every legal word is the encoding of the command it decodes to: a command has one word. -/
def Obligations.DecodedWordIsTheEncoding : Prop :=
  ∀ (w : Word32) (i : Instr), decode w = .ok i → encode i = w

/-- R55: the rows of the opcode map with their masks, and every word no row matches raises ILLEGAL_COMMAND. -/
def Obligations.OpcodeMapIsComplete : Prop :=
  (∀ d : U16,
    decode (0x0000#16 ++ d) = .ok (.lpfInit d) ∧ decode (0x0001#16 ++ d) = .ok (.lpfProcess d) ∧
    decode (0x0002#16 ++ d) = .ok (.lpfSetc d) ∧ decode (0x0004#16 ++ d) = .ok (.hpfInit d) ∧
    decode (0x0005#16 ++ d) = .ok (.hpfProcess d) ∧ decode (0x0006#16 ++ d) = .ok (.hpfSetc d) ∧
    decode (0x0008#16 ++ d) = .ok (.nlpfInit d) ∧ decode (0x0009#16 ++ d) = .ok (.nlpfProcess d) ∧
    decode (0x000A#16 ++ d) = .ok (.nlpfSetc d)) ∧
  decode 0x00030000 = .ok .lpfReset ∧ decode 0x00070000 = .ok .hpfReset ∧ decode 0x000B0000 = .ok .nlpfReset ∧
  ∀ w : Word32,
    w &&& 0xFFFF0000 ∉ ([0x00000000, 0x00010000, 0x00020000, 0x00040000, 0x00050000, 0x00060000, 0x00080000,
      0x00090000, 0x000A0000] : List Word32) →
    w &&& 0xFFFFFFFF ∉ ([0x00030000, 0x00070000, 0x000B0000] : List Word32) →
    ∀ s : State, runWord w s =
      .next { s with errSticky := s.errSticky ||| 0b01, responses := s.responses ++ [0x00010000] }

/-- R57: which words are illegal, as conditions on the number a word is, and by which class each is rejected. -/
def Obligations.IllegalWordClasses : Prop :=
  ∀ w : Word32,
    (decode w = .error .reservedBits ↔ 2 ^ 20 ≤ w.toNat) ∧
    (decode w = .error .reservedUnit ↔ w.toNat < 2 ^ 20 ∧ w.toNat / 2 ^ 18 = 3) ∧
    (decode w = .error .resetWithData ↔
      w.toNat / 2 ^ 18 < 3 ∧ w.toNat / 2 ^ 16 % 4 = 3 ∧ w.toNat % 2 ^ 16 ≠ 0)

/-- One word of each row, and illegal words, as 95_test_vectors.md L2-E writes them. A sanity statement. -/
def Obligations.SampleWordsDecode : Prop :=
  decode 0x0000000A = .ok (.lpfInit 10) ∧ decode 0x000103FF = .ok (.lpfProcess 1023) ∧
  decode 0x0002007E = .ok (.lpfSetc 126) ∧ decode 0x00030000 = .ok .lpfReset ∧
  decode 0x0004000A = .ok (.hpfInit 10) ∧ decode 0x00050000 = .ok (.hpfProcess 0) ∧
  decode 0x00060000 = .ok (.hpfSetc 0) ∧ decode 0x00070000 = .ok .hpfReset ∧
  decode 0x00080020 = .ok (.nlpfInit 32) ∧ decode 0x0009FFFF = .ok (.nlpfProcess 65535) ∧
  decode 0x000A0040 = .ok (.nlpfSetc 64) ∧ decode 0x000B0000 = .ok .nlpfReset ∧
  decode 0x000C0000 = .error .reservedUnit ∧ decode 0x000BFFFF = .error .resetWithData ∧
  decode 0x80010005 = .error .reservedBits

/-- R60, R62: the listing line of every command assembles to that command. The text's digits are log 11. -/
def Obligations.AssemblyTextAssembles : Prop :=
  ∀ i : Instr, assembleLine (assemblyText i) = .ok i

/-- R61: the two pseudo-instructions assemble to what INIT and SETC assemble to, whatever the operand text.
White space and labels are log 11. -/
def Obligations.PseudoInstructionsAreInitAndSetc : Prop :=
  ∀ (u : UnitId) (operand : List Char), ':' ∉ operand → ';' ∉ operand →
    assembleLine (unitName u ++ ['.'] ++ constructName ++ [' '] ++ operand) =
      assembleLine (unitName u ++ ['.'] ++ opName .init ++ [' '] ++ operand) ∧
    assembleLine (unitName u ++ ['.'] ++ setCoefficientName ++ [' '] ++ operand) =
      assembleLine (unitName u ++ ['.'] ++ opName .setc ++ [' '] ++ operand)

/-- R11: `bitwidth16` is the position of the most significant set bit, counting from 1, and 0 for 0; `clz16` is the
number of leading zero bits, and 16 for 0. -/
def Obligations.BitWidthIsHighestSetBit : Prop :=
  bitwidth16 0 = 0 ∧ clz16 0 = 16 ∧
  ∀ v : U16,
    bitwidth16 v = 16 - clz16 v ∧ clz16 v ≤ 16 ∧
    (∀ j, 16 - clz16 v ≤ j → v.getLsbD j = false) ∧ (v ≠ 0 → v.getLsbD (15 - clz16 v) = true) ∧
    (v ≠ 0 → 1 ≤ bitwidth16 v ∧ v.getLsbD (bitwidth16 v - 1) = true ∧
      ∀ j, bitwidth16 v ≤ j → v.getLsbD j = false)

/-! ### Coefficients (40_coefficient.md) -/

/-- R65: `CoeffBasic` over the whole domain, in the rule's formula. -/
def Obligations.BasicCoefficientOverItsDomain : Prop :=
  ∀ raw : U16,
    (coeffBasic raw).alpha.toNat = (raw.toNat + 1) % 2 ^ 16 ∧
    (raw.toNat ≤ 126 → (coeffBasic raw).oma.toNat = 126 - raw.toNat) ∧
    (127 ≤ raw.toNat ∧ raw.toNat ≤ 65534 → (coeffBasic raw).oma.toNat = 65662 - raw.toNat) ∧
    (raw.toNat = 65535 → (coeffBasic raw).oma.toNat = 127)

/-- R66: the raw coefficients for which all three properties of a legal one hold together are exactly 0..126. -/
def Obligations.LegalCoefficientsAreExactly : Prop :=
  ∀ raw : U16, raw.toNat ≤ 126 ↔
    (1 ≤ (coeffBasic raw).alpha.toNat ∧ (coeffBasic raw).alpha.toNat ≤ 127) ∧
    ((coeffBasic raw).oma.toNat : Int) = 126 - raw.toNat ∧
    (coeffBasic raw).alpha.toNat + (coeffBasic raw).oma.toNat = 127

/-- R68: `CoeffNorm` over the whole domain, the first two rows and then one row for each `ash` from 1 to 10. -/
def Obligations.NormalizedCoefficientOverItsDomain : Prop :=
  (bitwidth16 0 = 0 ∧ coeffNorm 0 = { alpha := 0, ash := 0 }) ∧
  ∀ raw : U16,
    (1 ≤ raw.toNat ∧ raw.toNat ≤ 63 →
      1 ≤ bitwidth16 raw ∧ bitwidth16 raw ≤ 6 ∧ (coeffNorm raw).ash = 0 ∧
      (coeffNorm raw).alpha.toNat = raw.toNat) ∧
    ∀ k, 1 ≤ k → k ≤ 10 → 2 ^ (k + 5) ≤ raw.toNat → raw.toNat < 2 ^ (k + 6) →
      bitwidth16 raw = k + 6 ∧ (coeffNorm raw).ash.toNat = k ∧
      (coeffNorm raw).alpha.toNat = raw.toNat / 2 ^ k ∧
      32 ≤ (coeffNorm raw).alpha.toNat ∧ (coeffNorm raw).alpha.toNat ≤ 63

/-- R70 and the last clause of 10_state.md R25: the kept coefficient is the raw one with its low `ash` bits dropped,
and it is 0 only for raw 0. -/
def Obligations.NormalizedCoefficientDropsLowBits : Prop :=
  ∀ raw : U16,
    let c := coeffNorm raw
    c.alpha.toNat * 2 ^ c.ash.toNat = raw.toNat - raw.toNat % 2 ^ c.ash.toNat ∧
    raw.toNat - c.alpha.toNat * 2 ^ c.ash.toNat < 2 ^ c.ash.toNat ∧
    (c.alpha = 0 ↔ raw = 0)

/-! ### Each command's own effect -/

/-- 41_lowpass.md R73. -/
def Obligations.LpfInitResult : Prop :=
  ∀ (raw : U16) (s : State), exec (.lpfInit raw) s =
    .next { s with lpf := { alpha := raw + 1, oma := 126 - raw, last := 0, cfg := true },
                   responses := s.responses ++ [0x00000000] }

/-- 41_lowpass.md R72 with R71, on a configured unit, for every coefficient, legal or not. -/
def Obligations.LpfProcessResult : Prop :=
  ∀ (x : U16) (s : State), s.lpf.cfg = true →
    let acc := (s.lpf.alpha.toNat * x.toNat + s.lpf.oma.toNat * s.lpf.last.toNat) % 2 ^ 32
    let y : U16 := BitVec.ofNat 16 (acc / 2 ^ 7)
    exec (.lpfProcess x) s =
      .next { s with lpf := { s.lpf with last := y }, responses := s.responses ++ [y.setWidth 32] }

/-- 41_lowpass.md R74. -/
def Obligations.LpfSetcResult : Prop :=
  ∀ (raw : U16) (s : State), exec (.lpfSetc raw) s =
    .next { s with lpf := { s.lpf with alpha := raw + 1, oma := 126 - raw, cfg := true },
                   responses := s.responses ++ [0x00000000] }

/-- 41_lowpass.md R75. -/
def Obligations.LpfResetResult : Prop :=
  ∀ s : State, exec .lpfReset s =
    .next { s with lpf := { s.lpf with last := 0 }, responses := s.responses ++ [0x00000000] }

/-- 42_highpass.md R77. -/
def Obligations.HpfInitResult : Prop :=
  ∀ (raw : U16) (s : State), exec (.hpfInit raw) s =
    .next { s with hpf := { alpha := raw + 1, oma := 126 - raw, last := 0, cfg := true },
                   responses := s.responses ++ [0x00000000] }

/-- 42_highpass.md R78 under CLAMP, on a configured unit. The natural-number difference is 0 where it would be negative. -/
def Obligations.HpfProcessResult : Prop :=
  ∀ (x : U16) (s : State), s.hpf.cfg = true →
    let acc := (s.hpf.alpha.toNat * x.toNat + s.hpf.oma.toNat * s.hpf.last.toNat) % 2 ^ 32
    let low : U16 := BitVec.ofNat 16 (acc / 2 ^ 7)
    exec (.hpfProcess x) s =
      .next { s with hpf := { s.hpf with last := low },
                     responses := s.responses ++ [BitVec.ofNat 32 (x.toNat - low.toNat)] }

/-- 42_highpass.md R79. -/
def Obligations.HpfSetcResult : Prop :=
  ∀ (raw : U16) (s : State), exec (.hpfSetc raw) s =
    .next { s with hpf := { s.hpf with alpha := raw + 1, oma := 126 - raw, cfg := true },
                   responses := s.responses ++ [0x00000000] }

/-- 42_highpass.md R80. -/
def Obligations.HpfResetResult : Prop :=
  ∀ s : State, exec .hpfReset s =
    .next { s with hpf := { s.hpf with last := 0 }, responses := s.responses ++ [0x00000000] }

/-- 43_normalized.md R90. `Nat.size` is the bit width of a number; its difference with 6 is 0 below 6. -/
def Obligations.NlpfInitResult : Prop :=
  ∀ (raw : U16) (s : State),
    let ash := raw.toNat.size - 6
    exec (.nlpfInit raw) s =
      .next { s with nlpf := { alpha := BitVec.ofNat 6 (raw.toNat / 2 ^ ash), ash := BitVec.ofNat 4 ash,
                               last := 0, cfg := true },
                     responses := s.responses ++ [0x00000000] }

/-- 43_normalized.md R91 with R84 to R89 under SATURATE, on a configured unit. The spec's `ash` is 0..10; that the same
formula holds in a state whose `ash` is 11..15, which no run reaches, is the model's (DEDUCED, log 14). -/
def Obligations.NlpfProcessResult : Prop :=
  ∀ (x : U16) (s : State), s.nlpf.cfg = true →
    let si := x.toNat.size - 10
    let sl := s.nlpf.last.toNat.size - 10
    let p1 := s.nlpf.alpha.toNat * (x.toNat / 2 ^ si)
    let p2 := (64 - s.nlpf.alpha.toNat) * (s.nlpf.last.toNat / 2 ^ sl)
    let r := (p1 + p2) * 2 ^ s.nlpf.ash.toNat / 2 ^ (6 - si)
    let y : U16 := BitVec.ofNat 16 (min r 65535)
    exec (.nlpfProcess x) s =
      .next { s with nlpf := { s.nlpf with last := y }, responses := s.responses ++ [y.setWidth 32] }

/-- 43_normalized.md R92. -/
def Obligations.NlpfSetcResult : Prop :=
  ∀ (raw : U16) (s : State),
    let ash := raw.toNat.size - 6
    exec (.nlpfSetc raw) s =
      .next { s with nlpf := { s.nlpf with alpha := BitVec.ofNat 6 (raw.toNat / 2 ^ ash),
                                           ash := BitVec.ofNat 4 ash, cfg := true },
                     responses := s.responses ++ [0x00000000] }

/-- 43_normalized.md R93. -/
def Obligations.NlpfResetResult : Prop :=
  ∀ s : State, exec .nlpfReset s =
    .next { s with nlpf := { s.nlpf with last := 0 }, responses := s.responses ++ [0x00000000] }

/-! ### Errors (60_exceptions.md) -/

/-- R97, R100: a PROCESS to an unconfigured unit sets bit 1 of `ERR_STICKY`, returns NOT_CONFIGURED with RESULT 0, and
writes nothing else. This is where a PROCESS raises, not where it completes. -/
def Obligations.UnconfiguredProcessRaises : Prop :=
  ∀ (i : Instr) (s : State), i.op = .process → s.configured i.unit = false →
    exec i s = .next { s with errSticky := s.errSticky ||| 0b10, responses := s.responses ++ [0x00020000] }

/-- R99: which sticky bit each raise sets, that a successful command writes neither, and that only a hardware reset
clears them. -/
def Obligations.StickyBitsSetByRaisesOnly : Prop :=
  (∀ (w : Word32) (s : State), ∃ t, runWord w s = .next t ∧
    ((∃ e, decode w = .error e) → t.errSticky = s.errSticky ||| 0b01) ∧
    (∀ i, decode w = .ok i →
      (i.op = .process ∧ s.configured i.unit = false → t.errSticky = s.errSticky ||| 0b10) ∧
      (s.Ready i → t.errSticky = s.errSticky))) ∧
  (∀ s t : State, step s = .next t →
    ((∀ p rest, s.inputs = p :: rest → p.rst = false) → s.errSticky &&& t.errSticky = s.errSticky) ∧
    (∀ p rest, s.inputs = p :: rest → p.rst = true → t.errSticky = 0b00))

/-- R101: ILLEGAL_COMMAND is decided on the word alone; NOT_CONFIGURED comes only from a legal PROCESS word; a command
raises at most one status; a hardware reset wins over a command of the same cycle: nothing of it is left, whatever
the registers without a value hold (R31). -/
def Obligations.ErrorPriority : Prop :=
  (∀ (w : Word32) (e : Illegal) (s : State), decode w = .error e →
    runWord w s = .next { s with errSticky := s.errSticky ||| 0b01, responses := s.responses ++ [0x00010000] }) ∧
  (∀ (w : Word32) (s : State), ∃ t r, runWord w s = .next t ∧ t.responses = s.responses ++ [r] ∧
    (rspStatus r = 0b10 → ∃ i, decode w = .ok i ∧ i.op = .process ∧ s.configured i.unit = false)) ∧
  (∀ (s : State) (p : PortIn) (rest : List PortIn), s.inputs = p :: rest → p.rst = true →
    ∃ t, step s = .next t ∧ t.Agree { State.reset with inputs := t.inputs, delivered := s.delivered, issued := t.issued, resets := t.resets })

/-- R104: what `ERR_STICKY` holds changes no later command's effect or response. -/
def Obligations.StickyBitsChangeNoResult : Prop :=
  ∀ (w : Word32) (s : State) (b : BitVec 2), ∃ t u,
    runWord w s = .next t ∧ runWord w { s with errSticky := b } = .next u ∧
    t.lpf = u.lpf ∧ t.hpf = u.hpf ∧ t.nlpf = u.nlpf ∧ t.responses = u.responses

/-- 30_encoding.md R54: every command appends one response; RESULT is 0 but for a PROCESS with STATUS OK, where it is
the filter output. -/
def Obligations.ResultOfEachResponse : Prop :=
  ∀ (i : Instr) (s : State), ∃ t r, exec i s = .next t ∧ t.responses = s.responses ++ [r] ∧
    (i.op ≠ .process → rspStatus r = 0b00 ∧ rspResult r = 0) ∧
    (rspStatus r ≠ 0b00 → rspResult r = 0) ∧
    (i.op = .process → (rspStatus r = 0b00 ↔ s.configured i.unit = true)) ∧
    (∀ x, i = .lpfProcess x → s.lpf.cfg = true → rspResult r = t.lpf.last) ∧
    (∀ x, i = .nlpfProcess x → s.nlpf.cfg = true → rspResult r = t.nlpf.last) ∧
    (∀ x, i = .hpfProcess x → s.hpf.cfg = true → (rspResult r).toNat = x.toNat - t.hpf.last.toNat)

/-- No state and no command word stops the machine: every step answers a next state (R102, R104). -/
def Obligations.EveryStepGoesOn : Prop :=
  ∀ s : State, ∃ t, step s = .next t

/-! ### The laws of the datapaths -/

/-- 41_lowpass.md R76 item 1. -/
def Obligations.LpfLegalNeverOverflows : Prop :=
  ∀ raw last x : U16, legalRaw raw →
    let c := coeffBasic raw
    c.alpha.toNat * x.toNat + c.oma.toNat * last.toNat ≤ 8322945 ∧
    (lpfStep c.alpha c.oma last x).toNat = (c.alpha.toNat * x.toNat + c.oma.toNat * last.toNat) / 2 ^ 7 ∧
    (lpfStep c.alpha c.oma last x).toNat ≤ 65023

/-- 41_lowpass.md R76 items 2 and 3. -/
def Obligations.LpfLegalMonotoneAndBounded : Prop :=
  ∀ raw last last' x x' : U16, legalRaw raw →
    let c := coeffBasic raw
    (last ≤ last' → x ≤ x' → lpfStep c.alpha c.oma last x ≤ lpfStep c.alpha c.oma last' x') ∧
    (lpfStep c.alpha c.oma last x).toNat ≤ max x.toNat last.toNat ∧
    (1 ≤ max x.toNat last.toNat → (lpfStep c.alpha c.oma last x).toNat < max x.toNat last.toNat)

/-- 41_lowpass.md R76 item 4: the fixed points under a held input, and the direction of a step on either side. -/
def Obligations.LpfFixedPointInterval : Prop :=
  ∀ raw v y : U16, legalRaw raw →
    let c := coeffBasic raw
    let a := c.alpha.toNat
    (lpfStep c.alpha c.oma y v = y ↔ a * v.toNat < (a + 1) * y.toNat + 128 ∧ (a + 1) * y.toNat ≤ a * v.toNat) ∧
    ((a + 1) * y.toNat + 128 ≤ a * v.toNat → y < lpfStep c.alpha c.oma y v) ∧
    (a * v.toNat < (a + 1) * y.toNat → lpfStep c.alpha c.oma y v < y) ∧
    lpfStep c.alpha c.oma (BitVec.ofNat 16 (a * v.toNat / (a + 1))) v = BitVec.ofNat 16 (a * v.toNat / (a + 1)) ∧
    (v ≠ 0 → a * v.toNat / (a + 1) < v.toNat)

/-- 41_lowpass.md R76 items 5 and 6: under a held input the output moves monotonically to the nearest end of the
fixed-point interval, reaches it, and stays. -/
def Obligations.LpfSettlesUnderHeldInput : Prop :=
  ∀ raw v last : U16, legalRaw raw →
    let c := coeffBasic raw
    let y := fun n => lpfHold c.alpha c.oma v n last
    ∃ lo hi : U16,
      (∀ z, lpfStep c.alpha c.oma z v = z ↔ lo ≤ z ∧ z ≤ hi) ∧
      hi.toNat = c.alpha.toNat * v.toNat / (c.alpha.toNat + 1) ∧
      (last < lo → ∀ n, y n ≤ y (n + 1)) ∧ (hi < last → ∀ n, y (n + 1) ≤ y n) ∧
      ∃ N, ∀ n, N ≤ n → y n = if last < lo then lo else if hi < last then hi else last

/-- 42_highpass.md R81: the reconstruction law, under both policies. -/
def Obligations.HighPassReconstruction : Prop :=
  ∀ x low : U16,
    (low ≤ x → ∀ p, (highPass p x low).toNat + low.toNat = x.toNat) ∧
    (x < low → highPass .clamp x low = 0 ∧ highPass .wrap x low + low = x)

/-- 42_highpass.md R81: a separate unit LPF with the same coefficient and the same inputs gives the same `low`
sequence. The two units keep equal registers under the same operation. -/
def Obligations.LpfMirrorsOwnedInstance : Prop :=
  ∀ (s : State) (o : Op) (d : U16), s.lpf = s.hpf → ∃ t u,
    exec (Instr.ofParts .lpf o d) s = .next t ∧ exec (Instr.ofParts .hpf o d) t = .next u ∧ u.lpf = u.hpf

/-- 43_normalized.md R94: the bounds of the NLPF datapath, and that the sum needs 26 bits. -/
def Obligations.NlpfDatapathBounds : Prop :=
  (∀ v : U16, preShiftAmount v ≤ 6 ∧ preShifted v ≤ 1023) ∧
  (∀ (alpha : BitVec 6) (ash : BitVec 4) (last x : U16), ash.toNat ≤ 10 →
    alpha.toNat * preShifted x ≤ 64449 ∧ (64 - alpha.toNat) * preShifted last ≤ 65472 ∧
    normAcc alpha ash last x =
      (alpha.toNat * preShifted x + (64 - alpha.toNat) * preShifted last) * 2 ^ ash.toNat ∧
    normAcc alpha ash last x ≤ 67043328 ∧
    normAcc alpha ash last x / 2 ^ (6 - preShiftAmount x) ≤ 67043328 ∧
    (ash = 0 → normAcc alpha ash last x / 2 ^ (6 - preShiftAmount x) ≤ 65472)) ∧
  (∃ (alpha : BitVec 6) (ash : BitVec 4) (last x : U16), ash.toNat ≤ 10 ∧ 2 ^ 25 ≤ normAcc alpha ash last x)

/-- 43_normalized.md R95 items 1 and 2: the exact average where nothing is pre-shifted, and what `alpha = 0` does
where one operand is. -/
def Obligations.NlpfUnityGain : Prop :=
  ∀ (alpha : BitVec 6) (last x : U16),
    (x.toNat ≤ 1023 → last.toNat ≤ 1023 →
      (normStep .saturate alpha 0 last x).toNat =
        (alpha.toNat * x.toNat + (64 - alpha.toNat) * last.toNat) / 64) ∧
    (x.toNat ≤ 1023 → 1023 < last.toNat →
      (normStep .saturate 0 0 last x).toNat = last.toNat / 2 ^ (last.toNat.size - 10)) ∧
    (1023 < x.toNat → last.toNat ≤ 1023 →
      (normStep .saturate 0 0 last x).toNat = last.toNat * 2 ^ (x.toNat.size - 10))

/-- 43_normalized.md R95 item 4: after 5 samples of 0, under a held 1023, the output strictly increases until it
becomes constant, for every raw coefficient; with raw 0 it stays 0. -/
def Obligations.NlpfStepProperty : Prop :=
  ∀ raw : U16,
    let c := coeffNorm raw
    let y := fun n => normHold c.alpha c.ash 1023 n (normHold c.alpha c.ash 0 5 0)
    (∀ n, y n < y (n + 1) ∨ ∀ m, n ≤ m → y m = y n) ∧ (raw = 0 → ∀ n, y n = 0)

/-! ### State invariants and frames (10_state.md, 20_memory.md) -/

/-- The invariants of 10_state.md R22, R25, R26, R32 and 30_encoding.md R46 hold right after hardware reset, and so does
that of the model's record of issued commands (log 6). -/
def Obligations.ResetMeetsTheInvariants : Prop :=
  State.reset.Coherent ∧ State.reset.WithinDepth ∧ State.reset.ErrorsRecorded ∧ State.reset.RecordMatches

/-- R22, R25, R32: every step keeps the register invariants, from every state that has them. -/
def Obligations.StepKeepsRegistersCoherent : Prop :=
  ∀ s t : State, s.Coherent → step s = .next t → t.Coherent

/-- R21: who sets `cfg`, that only hardware reset clears it, and that an unconfigured PROCESS raises. -/
def Obligations.ConfiguredBitRule : Prop :=
  (∀ (i : Instr) (s : State), ∃ t, exec i s = .next t ∧
    (∀ u, t.configured u = (s.configured u || (i.unit == u && (i.op == .init || i.op == .setc)))) ∧
    (i.op = .process → s.configured i.unit = false → t.responses = s.responses ++ [0x00020000])) ∧
  (∀ (s t : State) (u : UnitId), step s = .next t → s.configured u = true →
    t.configured u = false → ∃ p rest, s.inputs = p :: rest ∧ p.rst = true) ∧
  (∀ (s : State) (p : PortIn) (rest : List PortIn), s.inputs = p :: rest → p.rst = true →
    ∃ t, step s = .next t ∧ ∀ u, t.configured u = false)

/-- R17, 70_reset_and_hazards.md R114: a command writes registers of the unit it is addressed to, `ERR_STICKY` and its
response, and nothing else. -/
def Obligations.OtherUnitsUnchanged : Prop :=
  ∀ (i : Instr) (s : State), ∃ t, exec i s = .next t ∧
    (∀ u, u ≠ i.unit → State.SameUnit u s t) ∧
    t.accepted = s.accepted ∧ t.inputs = s.inputs ∧ t.delivered = s.delivered ∧ t.issued = s.issued ∧ t.resets = s.resets

/-- 20_memory.md R44: two adjacent commands to different units commute in state and in each one's response. -/
def Obligations.UnitsCommute : Prop :=
  ∀ (i j : Instr) (s : State), i.unit ≠ j.unit → ∃ t tj u ui ri rj,
    exec i s = .next t ∧ exec j t = .next tj ∧ exec j s = .next u ∧ exec i u = .next ui ∧
    tj.SameRegs ui ∧ tj.responses = s.responses ++ [ri, rj] ∧ ui.responses = s.responses ++ [rj, ri]

/-- R31: no step reads a coefficient register of an unconfigured unit. Two states that differ only there step to
states that differ only there. The value such a register holds at reset (log 1) is thus seen by nothing. -/
def Obligations.UnconfiguredCoefficientsUnread : Prop :=
  ∀ s t s' : State, s.Agree t → step s = .next s' → ∃ t', step t = .next t' ∧ s'.Agree t'

/-- 20_memory.md R38: INIT, SETC and RESET are idempotent on the registers. -/
def Obligations.ConfigurationCommandsIdempotent : Prop :=
  ∀ (i : Instr) (s : State), i.op ≠ .process → ∃ t u, exec i s = .next t ∧ exec i t = .next u ∧ t.SameRegs u

/-- D15 with R32: on an unconfigured unit SETC leaves the state that INIT leaves. -/
def Obligations.SetcOnUnconfiguredIsInit : Prop :=
  ∀ (u : UnitId) (raw : U16) (s : State), s.Coherent → s.configured u = false →
    exec (Instr.ofParts u .setc raw) s = exec (Instr.ofParts u .init raw) s

/-- 70_reset_and_hazards.md R117: a PROCESS after SETC uses the new coefficient on the old state; after RESET, the old
coefficient on state 0. -/
def Obligations.SetcAndResetTakeEffectNext : Prop :=
  ∀ (raw x : U16) (s : State),
    (∃ t u, exec (.lpfSetc raw) s = .next t ∧ t.lpf.last = s.lpf.last ∧ exec (.lpfProcess x) t = .next u ∧
      u.lpf.last = lpfStep (raw + 1) (126 - raw) s.lpf.last x) ∧
    (∃ t u, exec (.hpfSetc raw) s = .next t ∧ t.hpf.last = s.hpf.last ∧ exec (.hpfProcess x) t = .next u ∧
      u.hpf.last = lpfStep (raw + 1) (126 - raw) s.hpf.last x) ∧
    (∃ t u, exec (.nlpfSetc raw) s = .next t ∧ t.nlpf.last = s.nlpf.last ∧ exec (.nlpfProcess x) t = .next u ∧
      u.nlpf.last = normStep .saturate (coeffNorm raw).alpha (coeffNorm raw).ash s.nlpf.last x) ∧
    (s.lpf.cfg = true → ∃ t u, exec .lpfReset s = .next t ∧ exec (.lpfProcess x) t = .next u ∧
      u.lpf.last = lpfStep s.lpf.alpha s.lpf.oma 0 x) ∧
    (s.hpf.cfg = true → ∃ t u, exec .hpfReset s = .next t ∧ exec (.hpfProcess x) t = .next u ∧
      u.hpf.last = lpfStep s.hpf.alpha s.hpf.oma 0 x) ∧
    (s.nlpf.cfg = true → ∃ t u, exec .nlpfReset s = .next t ∧ exec (.nlpfProcess x) t = .next u ∧
      u.nlpf.last = normStep .saturate s.nlpf.alpha s.nlpf.ash 0 x)

/-- 70_reset_and_hazards.md R113, 60_exceptions.md R97: without a reset, a legal command to a unit that is ready for
it keeps a run free of errors. How a run's errors reach across an earlier hardware reset is the model's choice
(DESIGN CHOICE, log 15). -/
def Obligations.ReadyCommandsKeepRunErrorFree : Prop :=
  ∀ (s : State) (w : Word32) (ws : List Word32) (i : Instr), s.ErrorFree → s.accepted = w :: ws →
    decode w = .ok i → s.Ready i → (∀ p rest, s.inputs = p :: rest → p.rst = false) →
    ∃ t, step s = .next t ∧ t.ErrorFree

/-! ### The step, the ports and hardware reset -/

/-- A step performs the oldest accepted command: with idle ports it is that command's `exec`; with a port cycle that
is no reset, the handshakes follow. What the command does is the spec's; that it is performed in this very step
(log 2), before the cycle's handshakes (log 8), and that the ports are idle once `inputs` has ended (log 5) are the
model's choices (DESIGN CHOICE). -/
def Obligations.StepRunsDecodedCommand : Prop :=
  ∀ (s : State) (w : Word32) (ws : List Word32) (i : Instr), s.accepted = w :: ws → decode w = .ok i →
    (s.inputs = [] → step s = exec i { s with accepted := ws }) ∧
    (∀ p rest, s.inputs = p :: rest → p.rst = false → ∃ t,
      exec i { s with accepted := ws, inputs := rest } = .next t ∧ step s = .next (t.transfer p))

/-- 60_exceptions.md R98 to R100, 70_reset_and_hazards.md R109: an illegal word raises whatever the state; with no
command FILTCORE waits. That the word is performed in this very step (log 2) and that the ports are idle once
`inputs` has ended (log 5) are the model's choices (DESIGN CHOICE). -/
def Obligations.StepWithoutALegalCommand : Prop :=
  ∀ s : State, s.inputs = [] →
    (s.accepted = [] → step s = .next s) ∧
    (∀ w ws e, s.accepted = w :: ws → decode w = .error e →
      step s = .next { s with accepted := ws, errSticky := s.errSticky ||| 0b01,
                              responses := s.responses ++ [0x00010000] })

/-- 70_reset_and_hazards.md R109, R110: what hardware reset leaves, however many of the accepted commands, `ws`, had
already taken effect. Its coefficient registers are not stated: the spec gives them no value (log 1). -/
def Obligations.HardwareResetDiscardsInFlight : Prop :=
  ∀ (s : State) (p : PortIn) (rest : List PortIn), s.inputs = p :: rest → p.rst = true →
    ∃ t, step s = .next t ∧
      t.lpf.cfg = false ∧ t.hpf.cfg = false ∧ t.nlpf.cfg = false ∧
      t.lpf.last = 0 ∧ t.hpf.last = 0 ∧ t.nlpf.last = 0 ∧ t.errSticky = 0b00 ∧
      t.accepted = [] ∧ t.responses = [] ∧ t.delivered = s.delivered ∧
      ∀ ws later m, s.accepted = ws ++ later → Performs ws s m →
        ∃ t', step { m with accepted := later } = .next t' ∧ t'.Agree t

/-- 30_encoding.md R45, 70_reset_and_hazards.md R111: the output ports, in reset and out of it. That `cmd_ready` is 1
whenever fewer than `DEPTH` commands are held is the model's choice (log 2) and is not stated here, nor is what
`rsp_word` holds while no response is offered (log 9). -/
def Obligations.OutputPorts : Prop :=
  ∀ (p : PortIn) (s : State),
    (s.portOut p).errSticky = s.errSticky ∧
    (p.rst = true → (s.portOut p).cmdReady = false ∧ (s.portOut p).rspValid = false) ∧
    (Config.DEPTH ≤ s.held → (s.portOut p).cmdReady = false) ∧
    (p.rst = false → ((s.portOut p).rspValid = true ↔ s.responses ≠ []) ∧
      ∀ r rs, s.responses = r :: rs → (s.portOut p).rspWord = some r)

/-- 30_encoding.md R46: the handshakes of a cycle without reset: a response goes to the host in order, a command joins
the accepted ones in order, and no register changes. That a command offered while fewer than `DEPTH` are held is
accepted in that very cycle (log 2), and the order inside the cycle, the oldest command performed first, then a
response delivered, then a command accepted with `cmd_ready` taken before the delivery (log 8), are the model's
choices (DESIGN CHOICE). -/
def Obligations.PortCycleHandshakes : Prop :=
  ∀ (s m : State) (p : PortIn) (rest : List PortIn), s.inputs = p :: rest → p.rst = false →
    performNext { s with inputs := rest } = .next m →
    ∃ t, step s = .next t ∧ m.SameRegs t ∧ t.inputs = rest ∧
      t.accepted = m.accepted ++ (if p.cmdValid = true ∧ s.held < Config.DEPTH then [p.cmdWord] else []) ∧
      (p.rspReady = true → t.responses = m.responses.tail ∧
        t.delivered = m.delivered ++ m.responses.head?.toList) ∧
      (p.rspReady = false → t.responses = m.responses ∧ t.delivered = m.delivered)

/-- 30_encoding.md R46: an offered response stays the offered one until the host takes it. -/
def Obligations.OfferedResponseIsStable : Prop :=
  ∀ (s : State) (r : Word32) (rs : List Word32), s.responses = r :: rs →
    (∀ p rest, s.inputs = p :: rest → p.rst = false ∧ p.rspReady = false) →
    ∃ t, step s = .next t ∧ t.responses.head? = some r

/-- 30_encoding.md R46: FILTCORE never comes to hold more than `DEPTH` commands without a delivered response; and the
model's record of issued commands (log 6) goes on to match what is in flight. -/
def Obligations.StepKeepsWithinDepth : Prop :=
  ∀ s t : State, step s = .next t →
    (s.WithinDepth → t.WithinDepth) ∧ (s.RecordMatches → t.RecordMatches)

/-- 30_encoding.md R52 to R54, 10_state.md R26: pending responses stay of a legal form, with the sticky bit of every
pending error set. -/
def Obligations.StepKeepsResponsesLegal : Prop :=
  ∀ s t : State, (∀ r ∈ s.responses, rspLegal r) → s.ErrorsRecorded → step s = .next t →
    (∀ r ∈ t.responses, rspLegal r) ∧ t.ErrorsRecorded

/-- 20_memory.md R40: a step without reset is a step of the sequential machine. What performing every accepted command
gives, in registers and in the whole sequence of responses, is the same before the step (with the command it may
accept) and after it. -/
def Obligations.StepRefinesSequentialMachine : Prop :=
  ∀ (s t : State), (∀ p rest, s.inputs = p :: rest → p.rst = false) → step s = .next t →
    ∃ taken : List Word32, (taken = [] ∨ ∃ p rest, s.inputs = p :: rest ∧ taken = [p.cmdWord]) ∧
      ∃ e f, Performs (s.accepted ++ taken) s e ∧ Performs t.accepted t f ∧ e.SameRegs f ∧
        e.delivered ++ e.responses = f.delivered ++ f.responses

/-- 20_memory.md R40, 70_reset_and_hazards.md R120: for every program `ws`, a host that offers each command and takes its
response ends the program with the registers and the observation of the sequential machine, whatever `DEPTH` is;
and whatever the host drives next, a hardware reset or more commands, the program stays ended with the same
responses. That two steps a command are enough is the model's choice (log 2, log 8).
The second clause is about any host, with hardware resets wherever it drives them: once every accepted command has
been performed, and if no reset came after the last acceptance, the registers are those of the final state of the
program of all commands issued since. R120 does not speak of a reset among a program's commands: that it does not end
the program, and that the final state is then that of the commands since the last such reset, is the model's choice
(DESIGN CHOICE, log 6), as is the record of issued commands both clauses are said in; and so is what they say of a
program of no command (DESIGN CHOICE, log 16). -/
def Obligations.HostedRunIsSequential : Prop :=
  (∀ (ws : List Word32) (later : List PortIn) (s : State), s.RecordMatches → s.accepted = [] → s.responses = [] →
    s.inputs = hostScript ws ++ later →
    ∃ t e, Host.Core.run Sys2Proof.core (2 * ws.length) s = .next t ∧ t.inputs = later ∧
      ProgramFinal ws s t e ∧ e.SameRegs t ∧ s.ProgramEnded ws t ∧
      t.delivered = s.delivered ++ e.responses ∧ e.responses.length = ws.length ∧
      ∀ m u, Host.Core.run Sys2Proof.core m t = .next u → s.ProgramEnded ws u ∧ ProgramFinal ws s u e ∧
        s.observation ws u e = { responses := e.responses, errSticky := t.errSticky }) ∧
  ∀ (n : Nat) (s t : State), Host.Core.run Sys2Proof.core n s = .next t → t.accepted = [] →
    let issued := t.issued.drop s.issued.length
    (issued.getLast?.map (·.resets)).getD s.resets = t.resets →
    ∃ e, ProgramFinal (issued.map (·.word)) s t e ∧ e.SameRegs t

/-- 70_reset_and_hazards.md R119: a host that takes responses gets one for every command held, and nothing stays in
flight. That one step a command is enough is the model's choice (log 2, log 8). -/
def Obligations.TakingHostDrainsEverything : Prop :=
  ∀ (n : Nat) (s : State), s.inputs = List.replicate n PortIn.take → s.held ≤ n →
    ∃ t, Host.Core.run Sys2Proof.core n s = .next t ∧ t.inputs = [] ∧ t.accepted = [] ∧ t.responses = [] ∧
      ∃ new, t.delivered = s.delivered ++ s.responses ++ new ∧ new.length = s.accepted.length
end

