-- ==== Sys2Proof/Laws/State.lean ====
section
/-! SUPPORT. What each update of State and of a unit's registers leaves in each field: one lemma per field per
update, true by unfolding, so that no proof unfolds an update. -/

namespace Sys2Proof.Machine

@[simp] theorem State.setLpf_lpf (u : LowPassRegs) (s : State) : (s.setLpf u).lpf = u := rfl
@[simp] theorem State.setLpf_hpf (u : LowPassRegs) (s : State) : (s.setLpf u).hpf = s.hpf := rfl
@[simp] theorem State.setLpf_nlpf (u : LowPassRegs) (s : State) : (s.setLpf u).nlpf = s.nlpf := rfl
@[simp] theorem State.setLpf_errSticky (u : LowPassRegs) (s : State) : (s.setLpf u).errSticky = s.errSticky := rfl
@[simp] theorem State.setLpf_accepted (u : LowPassRegs) (s : State) : (s.setLpf u).accepted = s.accepted := rfl
@[simp] theorem State.setLpf_responses (u : LowPassRegs) (s : State) : (s.setLpf u).responses = s.responses := rfl
@[simp] theorem State.setLpf_inputs (u : LowPassRegs) (s : State) : (s.setLpf u).inputs = s.inputs := rfl
@[simp] theorem State.setLpf_delivered (u : LowPassRegs) (s : State) : (s.setLpf u).delivered = s.delivered := rfl
@[simp] theorem State.setLpf_issued (u : LowPassRegs) (s : State) : (s.setLpf u).issued = s.issued := rfl
@[simp] theorem State.setLpf_resets (u : LowPassRegs) (s : State) : (s.setLpf u).resets = s.resets := rfl

@[simp] theorem State.setHpf_lpf (u : LowPassRegs) (s : State) : (s.setHpf u).lpf = s.lpf := rfl
@[simp] theorem State.setHpf_hpf (u : LowPassRegs) (s : State) : (s.setHpf u).hpf = u := rfl
@[simp] theorem State.setHpf_nlpf (u : LowPassRegs) (s : State) : (s.setHpf u).nlpf = s.nlpf := rfl
@[simp] theorem State.setHpf_errSticky (u : LowPassRegs) (s : State) : (s.setHpf u).errSticky = s.errSticky := rfl
@[simp] theorem State.setHpf_accepted (u : LowPassRegs) (s : State) : (s.setHpf u).accepted = s.accepted := rfl
@[simp] theorem State.setHpf_responses (u : LowPassRegs) (s : State) : (s.setHpf u).responses = s.responses := rfl
@[simp] theorem State.setHpf_inputs (u : LowPassRegs) (s : State) : (s.setHpf u).inputs = s.inputs := rfl
@[simp] theorem State.setHpf_delivered (u : LowPassRegs) (s : State) : (s.setHpf u).delivered = s.delivered := rfl
@[simp] theorem State.setHpf_issued (u : LowPassRegs) (s : State) : (s.setHpf u).issued = s.issued := rfl
@[simp] theorem State.setHpf_resets (u : LowPassRegs) (s : State) : (s.setHpf u).resets = s.resets := rfl

@[simp] theorem State.setNlpf_lpf (u : NormRegs) (s : State) : (s.setNlpf u).lpf = s.lpf := rfl
@[simp] theorem State.setNlpf_hpf (u : NormRegs) (s : State) : (s.setNlpf u).hpf = s.hpf := rfl
@[simp] theorem State.setNlpf_nlpf (u : NormRegs) (s : State) : (s.setNlpf u).nlpf = u := rfl
@[simp] theorem State.setNlpf_errSticky (u : NormRegs) (s : State) : (s.setNlpf u).errSticky = s.errSticky := rfl
@[simp] theorem State.setNlpf_accepted (u : NormRegs) (s : State) : (s.setNlpf u).accepted = s.accepted := rfl
@[simp] theorem State.setNlpf_responses (u : NormRegs) (s : State) : (s.setNlpf u).responses = s.responses := rfl
@[simp] theorem State.setNlpf_inputs (u : NormRegs) (s : State) : (s.setNlpf u).inputs = s.inputs := rfl
@[simp] theorem State.setNlpf_delivered (u : NormRegs) (s : State) : (s.setNlpf u).delivered = s.delivered := rfl
@[simp] theorem State.setNlpf_issued (u : NormRegs) (s : State) : (s.setNlpf u).issued = s.issued := rfl
@[simp] theorem State.setNlpf_resets (u : NormRegs) (s : State) : (s.setNlpf u).resets = s.resets := rfl

@[simp] theorem State.pushResponse_lpf (r : Word32) (s : State) : (s.pushResponse r).lpf = s.lpf := rfl
@[simp] theorem State.pushResponse_hpf (r : Word32) (s : State) : (s.pushResponse r).hpf = s.hpf := rfl
@[simp] theorem State.pushResponse_nlpf (r : Word32) (s : State) : (s.pushResponse r).nlpf = s.nlpf := rfl
@[simp] theorem State.pushResponse_errSticky (r : Word32) (s : State) : (s.pushResponse r).errSticky = s.errSticky := rfl
@[simp] theorem State.pushResponse_accepted (r : Word32) (s : State) : (s.pushResponse r).accepted = s.accepted := rfl
@[simp] theorem State.pushResponse_responses (r : Word32) (s : State) : (s.pushResponse r).responses = s.responses ++ [r] := rfl
@[simp] theorem State.pushResponse_inputs (r : Word32) (s : State) : (s.pushResponse r).inputs = s.inputs := rfl
@[simp] theorem State.pushResponse_delivered (r : Word32) (s : State) : (s.pushResponse r).delivered = s.delivered := rfl
@[simp] theorem State.pushResponse_issued (r : Word32) (s : State) : (s.pushResponse r).issued = s.issued := rfl
@[simp] theorem State.pushResponse_resets (r : Word32) (s : State) : (s.pushResponse r).resets = s.resets := rfl

@[simp] theorem State.stick_lpf (b : BitVec 2) (s : State) : (s.stick b).lpf = s.lpf := rfl
@[simp] theorem State.stick_hpf (b : BitVec 2) (s : State) : (s.stick b).hpf = s.hpf := rfl
@[simp] theorem State.stick_nlpf (b : BitVec 2) (s : State) : (s.stick b).nlpf = s.nlpf := rfl
@[simp] theorem State.stick_errSticky (b : BitVec 2) (s : State) : (s.stick b).errSticky = s.errSticky ||| b := rfl
@[simp] theorem State.stick_accepted (b : BitVec 2) (s : State) : (s.stick b).accepted = s.accepted := rfl
@[simp] theorem State.stick_responses (b : BitVec 2) (s : State) : (s.stick b).responses = s.responses := rfl
@[simp] theorem State.stick_inputs (b : BitVec 2) (s : State) : (s.stick b).inputs = s.inputs := rfl
@[simp] theorem State.stick_delivered (b : BitVec 2) (s : State) : (s.stick b).delivered = s.delivered := rfl
@[simp] theorem State.stick_issued (b : BitVec 2) (s : State) : (s.stick b).issued = s.issued := rfl
@[simp] theorem State.stick_resets (b : BitVec 2) (s : State) : (s.stick b).resets = s.resets := rfl

@[simp] theorem State.hwReset_lpf (s : State) : (s.hwReset).lpf = LowPassRegs.afterReset := rfl
@[simp] theorem State.hwReset_hpf (s : State) : (s.hwReset).hpf = LowPassRegs.afterReset := rfl
@[simp] theorem State.hwReset_nlpf (s : State) : (s.hwReset).nlpf = NormRegs.afterReset := rfl
@[simp] theorem State.hwReset_errSticky (s : State) : (s.hwReset).errSticky = 0b00 := rfl
@[simp] theorem State.hwReset_accepted (s : State) : (s.hwReset).accepted = [] := rfl
@[simp] theorem State.hwReset_responses (s : State) : (s.hwReset).responses = [] := rfl
@[simp] theorem State.hwReset_inputs (s : State) : (s.hwReset).inputs = s.inputs := rfl
@[simp] theorem State.hwReset_delivered (s : State) : (s.hwReset).delivered = s.delivered := rfl
@[simp] theorem State.hwReset_issued (s : State) : (s.hwReset).issued = s.issued.map Issued.discard := rfl
@[simp] theorem State.hwReset_resets (s : State) : (s.hwReset).resets = s.resets + 1 := rfl

@[simp] theorem State.deliver_lpf (s : State) : (s.deliver).lpf = s.lpf := by
  unfold State.deliver; split <;> rfl
@[simp] theorem State.deliver_hpf (s : State) : (s.deliver).hpf = s.hpf := by
  unfold State.deliver; split <;> rfl
@[simp] theorem State.deliver_nlpf (s : State) : (s.deliver).nlpf = s.nlpf := by
  unfold State.deliver; split <;> rfl
@[simp] theorem State.deliver_errSticky (s : State) : (s.deliver).errSticky = s.errSticky := by
  unfold State.deliver; split <;> rfl
@[simp] theorem State.deliver_accepted (s : State) : (s.deliver).accepted = s.accepted := by
  unfold State.deliver; split <;> rfl
@[simp] theorem State.deliver_inputs (s : State) : (s.deliver).inputs = s.inputs := by
  unfold State.deliver; split <;> rfl
@[simp] theorem State.deliver_resets (s : State) : (s.deliver).resets = s.resets := by
  unfold State.deliver; split <;> rfl
@[simp] theorem State.deliver_responses (s : State) : s.deliver.responses = s.responses.tail := by
  unfold State.deliver; split <;> simp [*]
@[simp] theorem State.deliver_delivered (s : State) :
    s.deliver.delivered = s.delivered ++ s.responses.head?.toList := by
  unfold State.deliver; split <;> simp [*]

@[simp] theorem State.accept_lpf (w : Word32) (s : State) : (s.accept w).lpf = s.lpf := rfl
@[simp] theorem State.accept_hpf (w : Word32) (s : State) : (s.accept w).hpf = s.hpf := rfl
@[simp] theorem State.accept_nlpf (w : Word32) (s : State) : (s.accept w).nlpf = s.nlpf := rfl
@[simp] theorem State.accept_errSticky (w : Word32) (s : State) : (s.accept w).errSticky = s.errSticky := rfl
@[simp] theorem State.accept_accepted (w : Word32) (s : State) : (s.accept w).accepted = s.accepted ++ [w] := rfl
@[simp] theorem State.accept_responses (w : Word32) (s : State) : (s.accept w).responses = s.responses := rfl
@[simp] theorem State.accept_inputs (w : Word32) (s : State) : (s.accept w).inputs = s.inputs := rfl
@[simp] theorem State.accept_delivered (w : Word32) (s : State) : (s.accept w).delivered = s.delivered := rfl
@[simp] theorem State.accept_issued (w : Word32) (s : State) :
    (s.accept w).issued = s.issued ++ [{ word := w, fate := .inFlight, resets := s.resets }] := rfl
@[simp] theorem State.accept_resets (w : Word32) (s : State) : (s.accept w).resets = s.resets := rfl

@[simp] theorem LowPassRegs.setCoeff_alpha (raw : U16) (u : LowPassRegs) : (u.setCoeff raw).alpha = (coeffBasic raw).alpha := rfl
@[simp] theorem LowPassRegs.setCoeff_oma (raw : U16) (u : LowPassRegs) : (u.setCoeff raw).oma = (coeffBasic raw).oma := rfl
@[simp] theorem LowPassRegs.setCoeff_last (raw : U16) (u : LowPassRegs) : (u.setCoeff raw).last = u.last := rfl
@[simp] theorem LowPassRegs.setCoeff_cfg (raw : U16) (u : LowPassRegs) : (u.setCoeff raw).cfg = true := rfl
@[simp] theorem LowPassRegs.setLast_alpha (v : U16) (u : LowPassRegs) : (u.setLast v).alpha = u.alpha := rfl
@[simp] theorem LowPassRegs.setLast_oma (v : U16) (u : LowPassRegs) : (u.setLast v).oma = u.oma := rfl
@[simp] theorem LowPassRegs.setLast_last (v : U16) (u : LowPassRegs) : (u.setLast v).last = v := rfl
@[simp] theorem LowPassRegs.setLast_cfg (v : U16) (u : LowPassRegs) : (u.setLast v).cfg = u.cfg := rfl

@[simp] theorem NormRegs.setCoeff_alpha (raw : U16) (u : NormRegs) : (u.setCoeff raw).alpha = (coeffNorm raw).alpha := rfl
@[simp] theorem NormRegs.setCoeff_ash (raw : U16) (u : NormRegs) : (u.setCoeff raw).ash = (coeffNorm raw).ash := rfl
@[simp] theorem NormRegs.setCoeff_last (raw : U16) (u : NormRegs) : (u.setCoeff raw).last = u.last := rfl
@[simp] theorem NormRegs.setCoeff_cfg (raw : U16) (u : NormRegs) : (u.setCoeff raw).cfg = true := rfl
@[simp] theorem NormRegs.setLast_alpha (v : U16) (u : NormRegs) : (u.setLast v).alpha = u.alpha := rfl
@[simp] theorem NormRegs.setLast_ash (v : U16) (u : NormRegs) : (u.setLast v).ash = u.ash := rfl
@[simp] theorem NormRegs.setLast_last (v : U16) (u : NormRegs) : (u.setLast v).last = v := rfl
@[simp] theorem NormRegs.setLast_cfg (v : U16) (u : NormRegs) : (u.setLast v).cfg = u.cfg := rfl

@[simp] theorem State.withFetchWord_lpf (s : State) (n w : Nat) : (s.withFetchWord n w).lpf = s.lpf := rfl
@[simp] theorem State.withFetchWord_hpf (s : State) (n w : Nat) : (s.withFetchWord n w).hpf = s.hpf := rfl
@[simp] theorem State.withFetchWord_nlpf (s : State) (n w : Nat) : (s.withFetchWord n w).nlpf = s.nlpf := rfl
@[simp] theorem State.withFetchWord_errSticky (s : State) (n w : Nat) : (s.withFetchWord n w).errSticky = s.errSticky := rfl
@[simp] theorem State.withFetchWord_accepted (s : State) (n w : Nat) : (s.withFetchWord n w).accepted = commandWord n w :: s.accepted := rfl
@[simp] theorem State.withFetchWord_responses (s : State) (n w : Nat) : (s.withFetchWord n w).responses = s.responses := rfl
@[simp] theorem State.withFetchWord_inputs (s : State) (n w : Nat) : (s.withFetchWord n w).inputs = PortIn.idle :: s.inputs := rfl
@[simp] theorem State.withFetchWord_delivered (s : State) (n w : Nat) : (s.withFetchWord n w).delivered = s.delivered := rfl
@[simp] theorem State.withFetchWord_issued (s : State) (n w : Nat) : (s.withFetchWord n w).issued = s.issued := rfl
@[simp] theorem State.withFetchWord_resets (s : State) (n w : Nat) : (s.withFetchWord n w).resets = s.resets := rfl

end Sys2Proof.Machine
end

