-- ==== Sys2Proof/Laws/Ops.lean ====
section
/-! SUPPORT. One lemma per shared operation that says everything it can do; proofs cite these and unfold none of the
operations. -/

namespace Sys2Proof.Machine

/-- `respond` always answers the state with one OK response appended (00_scope.md R13). -/
theorem respond_next_iff (v : U16) (s t : State) :
    s.respond v = .next t ↔ t = s.pushResponse (rspWord .ok v) := by
  simp only [State.respond, Host.Outcome.next.injEq]
  exact eq_comm

/-- `raise` always answers the state with one sticky bit set and one error response appended (R13, R99). -/
theorem raise_next_iff (c : ErrorCause) (s t : State) :
    s.raise c = .next t ↔ t = (s.stick c.stickyBit).pushResponse c.rspWord := by
  simp only [State.raise, Host.Outcome.next.injEq]
  exact eq_comm

/-- `mapNext` answers a next state exactly when what it goes on from does. -/
theorem mapNext_next_iff (f : State → State) (r : Result) (t : State) :
    mapNext f r = .next t ↔ ∃ m, r = .next m ∧ t = f m := by
  cases r <;> simp [mapNext, eq_comm]

/-- `trunc_N` keeps a value that fits (00_scope.md R9). -/
theorem trunc_of_lt {n v : Nat} (h : v < 2 ^ n) : trunc n v = v := Nat.mod_eq_of_lt h

/-- `trunc_N` fits `N` bits. -/
theorem trunc_lt (n v : Nat) : trunc n v < 2 ^ n := Nat.mod_lt _ (Nat.two_pow_pos n)

/-- `sat_N` fits `N` bits. -/
theorem sat_lt (n v : Nat) : sat n v < 2 ^ n := by
  have := Nat.two_pow_pos n
  unfold sat; omega

/-- `LpfStep` as one number: the only narrowings are the 32-bit sum's and the result's (41_lowpass.md R71). -/
theorem lpfStep_toNat (a o l x : U16) :
    (lpfStep a o l x).toNat = (a.toNat * x.toNat + o.toNat * l.toNat) % 2 ^ 32 / 2 ^ 7 % 2 ^ 16 := by
  simp [lpfStep, trunc, Nat.shiftRight_eq_div_pow, Config.ACC_W, Config.S, Config.W]

/-- The high-pass value of a difference that is not negative, under either policy (42_highpass.md R78). -/
theorem highPass_of_le (p : Config.HpUnderflow) {x low : U16} (h : low.toNat ≤ x.toNat) :
    (highPass p x low).toNat = x.toNat - low.toNat := by
  have hx := x.isLt
  have hd : ((x.toNat : Int) - low.toNat) ≥ 0 := by omega
  simp only [highPass, hd, if_true, truncInt, BitVec.toNat_ofInt]
  omega

/-- The high-pass value of a negative difference under CLAMP (R78). -/
theorem highPass_clamp_of_lt {x low : U16} (h : x.toNat < low.toNat) : highPass .clamp x low = 0 := by
  have hd : ¬ ((x.toNat : Int) - low.toNat) ≥ 0 := by omega
  simp only [highPass, hd, if_false]

/-- `deliver` with no response pending does nothing. -/
theorem deliver_nil {s : State} (h : s.responses = []) : s.deliver = s := by
  simp [State.deliver, h]

/-- Everything `deliver` does with a response pending: it goes to the host and answers the oldest command in flight
(30_encoding.md R46). -/
theorem deliver_cons {s : State} {r : Word32} {rs : List Word32} (h : s.responses = r :: rs) :
    s.deliver = { s with responses := rs, delivered := s.delivered ++ [r], issued := answerOldest r s.issued } := by
  simp [State.deliver, h]

/-- An answer changes no word of the record. -/
theorem answerOldest_word (r : Word32) (l : List Issued) :
    (answerOldest r l).map (·.word) = l.map (·.word) := by
  induction l with
  | nil => rfl
  | cons e es ih => simp only [answerOldest]; split <;> simp [ih]

/-- A discard changes no word of the record. -/
theorem discard_word (e : Issued) : e.discard.word = e.word := by
  unfold Issued.discard; split <;> rfl

/-- An answer changes no era of the record. -/
theorem answerOldest_resets (r : Word32) (l : List Issued) :
    (answerOldest r l).map (·.resets) = l.map (·.resets) := by
  induction l with
  | nil => rfl
  | cons e es ih => simp only [answerOldest]; split <;> simp [ih]

/-- A discard changes no era of the record. -/
theorem discard_resets (e : Issued) : e.discard.resets = e.resets := by
  unfold Issued.discard; split <;> rfl

/-- A discard leaves an answered command as it is (70_reset_and_hazards.md R120). -/
theorem discard_answered {e : Issued} {r : Word32} (h : e.fate = .answered r) : e.discard = e := by
  simp [Issued.discard, h]

/-- Everything a cycle's two handshakes can do (R46): one response delivered or none, one command accepted or none. -/
theorem transfer_cases (p : PortIn) (s : State) :
    (s.transfer p = s ∨ s.transfer p = s.deliver ∨ s.transfer p = s.accept p.cmdWord ∨
      s.transfer p = s.deliver.accept p.cmdWord) := by
  unfold State.transfer
  by_cases h1 : (p.rspReady && (s.portOut p).rspValid) = true <;>
    by_cases h2 : (p.cmdValid && (s.portOut p).cmdReady) = true <;> simp [h1, h2]

end Sys2Proof.Machine
end

