-- ==== Sys2Proof/Laws/Step.lean ====
section
/-! SUPPORT. What one step can do, said once: the cases of `performNext`, `portCycle` and `step`. -/

namespace Sys2Proof.Machine

/-- With no accepted command, FILTCORE waits (70_reset_and_hazards.md R109). -/
theorem performNext_nil {s : State} (h : s.accepted = []) : performNext s = .next s := by
  simp [performNext, h]

/-- The oldest accepted command is performed, and leaves the list (20_memory.md R40). -/
theorem performNext_cons {s : State} {w : Word32} {ws : List Word32} (h : s.accepted = w :: ws) :
    performNext s = runWord w { s with accepted := ws } := by
  simp [performNext, h]

/-- A legal word runs its command. -/
theorem runWord_ok {w : Word32} {i : Instr} (h : decode w = .ok i) (s : State) : runWord w s = exec i s := by
  simp [runWord, h]

/-- An illegal word raises ILLEGAL_COMMAND (60_exceptions.md R98). -/
theorem runWord_error {w : Word32} {e : Illegal} (h : decode w = .error e) (s : State) :
    runWord w s = s.raise .illegalCommand := by
  simp [runWord, h]

/-- A step with idle ports. -/
theorem step_nil {s : State} (h : s.inputs = []) : step s = performNext s := by
  simp [step, h]

/-- A step with what the host drives. -/
theorem step_cons {s : State} {p : PortIn} {ps : List PortIn} (h : s.inputs = p :: ps) :
    step s = portCycle p { s with inputs := ps } := by
  simp [step, h]

/-- A reset cycle (70_reset_and_hazards.md R111). -/
theorem portCycle_rst {p : PortIn} (h : p.rst = true) (s : State) : portCycle p s = .next s.hwReset := by
  simp [portCycle, h]

/-- A cycle without reset: the performed command, then the handshakes. -/
theorem portCycle_next_iff {p : PortIn} (h : p.rst = false) (s t : State) :
    portCycle p s = .next t ↔ ∃ m, performNext s = .next m ∧ t = m.transfer p := by
  simp [portCycle, h, mapNext_next_iff]

/-- Everything a step that answers a next state can have done. -/
theorem step_next_cases {s t : State} (h : step s = .next t) :
    (s.inputs = [] ∧ performNext s = .next t) ∨
    (∃ p ps, s.inputs = p :: ps ∧ p.rst = true ∧ t = State.hwReset { s with inputs := ps }) ∨
    (∃ p ps m, s.inputs = p :: ps ∧ p.rst = false ∧ performNext { s with inputs := ps } = .next m ∧
      t = m.transfer p) := by
  match hi : s.inputs with
  | [] => exact .inl ⟨rfl, by rw [step_nil hi] at h; exact h⟩
  | p :: ps =>
    rw [step_cons hi] at h
    match hr : p.rst with
    | true =>
      rw [portCycle_rst hr] at h
      exact .inr (.inl ⟨p, ps, rfl, hr, (Host.Outcome.next.inj h).symm⟩)
    | false =>
      obtain ⟨m, hm, ht⟩ := (portCycle_next_iff hr _ _).mp h
      exact .inr (.inr ⟨p, ps, m, rfl, hr, hm, ht⟩)

/-- A run goes on from a step that answers a next state, said of the machine's own step. -/
theorem run_succ (n : Nat) {s t : State} (h : step s = .next t) :
    Host.Core.run Sys2Proof.core (n + 1) s = Host.Core.run Sys2Proof.core n t :=
  have general : ∀ (M : Host.Core) (s t : M.State), M.step s = .next t → M.run (n + 1) s = M.run n t := by
    intro M s t h
    simp only [Host.Core.run, h]
  general Sys2Proof.core s t h

end Sys2Proof.Machine
end

