-- ==== Sys2Proof/Laws/PerInstr.lean ====
section
/-! SUPPORT. Statements about every command as syntax, one lemma per constructor of `Instr`. -/

namespace Sys2Proof.Laws

namespace FieldsLegal

/-- The fields a command is encoded with pass every check of 30_encoding.md R49 and R51. -/
def Statement (i : Instr) : Prop := i.fields.wellFormed = true

theorem lpfInit (raw : U16) : Statement (.lpfInit raw) := rfl
theorem lpfProcess (x : U16) : Statement (.lpfProcess x) := rfl
theorem lpfSetc (raw : U16) : Statement (.lpfSetc raw) := rfl
theorem lpfReset : Statement .lpfReset := rfl
theorem hpfInit (raw : U16) : Statement (.hpfInit raw) := rfl
theorem hpfProcess (x : U16) : Statement (.hpfProcess x) := rfl
theorem hpfSetc (raw : U16) : Statement (.hpfSetc raw) := rfl
theorem hpfReset : Statement .hpfReset := rfl
theorem nlpfInit (raw : U16) : Statement (.nlpfInit raw) := rfl
theorem nlpfProcess (x : U16) : Statement (.nlpfProcess x) := rfl
theorem nlpfSetc (raw : U16) : Statement (.nlpfSetc raw) := rfl
theorem nlpfReset : Statement .nlpfReset := rfl

end FieldsLegal

end Sys2Proof.Laws
end

