-- ==== Sys2Proof/Laws/Decode.lean ====
section
/-! SUPPORT. The small lemmas of the decoder and the encoder: the fields of a word and back, code by code. -/

namespace Sys2Proof

/-- Reading the fields of a packed word gives them back (30_encoding.md R47). -/
theorem CommandFields.ofWord_toWord (f : CommandFields) : CommandFields.ofWord f.toWord = f := by
  obtain ⟨r, u, o, d⟩ := f
  simp only [CommandFields.ofWord, CommandFields.toWord, CommandFields.mk.injEq]
  refine ⟨?_, ?_, ?_, ?_⟩ <;> refine BitVec.eq_of_getLsbD_eq fun i hi => ?_ <;>
    rw [BitVec.getLsbD_extractLsb'] <;> repeat rw [BitVec.getLsbD_append]
  all_goals simp only [hi, decide_true, Bool.true_and]
  all_goals repeat' split
  all_goals first
    | omega
    | (congr 1; omega)

/-- Packing the fields of a word gives it back (R47). -/
theorem CommandFields.toWord_ofWord (w : Word32) : (CommandFields.ofWord w).toWord = w := by
  refine BitVec.eq_of_getLsbD_eq fun i hi => ?_
  simp only [CommandFields.toWord, CommandFields.ofWord]
  repeat rw [BitVec.getLsbD_append]
  repeat rw [BitVec.getLsbD_extractLsb']
  repeat' split
  all_goals
    rw [decide_eq_true (by omega), Bool.true_and]
    congr 1
    omega

/-- A unit's code names it (R49). -/
theorem UnitId.ofCode_code (u : UnitId) : UnitId.ofCode u.code = some u := by cases u <;> rfl

/-- An operation's code names it (R50). -/
theorem Op.ofCode_code (o : Op) : Op.ofCode o.code = o := by cases o <;> rfl

/-- A command is made of its unit, its operation and its DATA (R55). -/
theorem Instr.ofParts_self (i : Instr) : Instr.ofParts i.unit i.op i.data = i := by cases i <;> rfl

/-- The unit of a command made of parts. -/
theorem Instr.unit_ofParts (u : UnitId) (o : Op) (d : U16) : (Instr.ofParts u o d).unit = u := by
  cases u <;> cases o <;> rfl

/-- The operation of a command made of parts. -/
theorem Instr.op_ofParts (u : UnitId) (o : Op) (d : U16) : (Instr.ofParts u o d).op = o := by
  cases u <;> cases o <;> rfl

end Sys2Proof
end

