-- ==== Sys2Proof/Tests/Slice0.lean ====
section
/-! SUPPORT. The model's own tests. Every expected value is taken from spec/95_test_vectors.md or from the rule named; the
`witness_` theorems show, for each statement with hypotheses, operands and a state that meet all of them. -/

namespace Sys2Proof.Tests

open Sys2Proof Sys2Proof.Machine

/-! ### WellFormed: one ill-formed term for each check (30_encoding.md R49, R51, R60) -/

theorem test_wellFormed_accepts : (CommandFields.mk 0 0b10 0b11 0).wellFormed = true := by decide
theorem test_wellFormed_refuses_rsv : (CommandFields.mk 1 0 0 0).rsvClear = false := by decide
theorem test_wellFormed_refuses_unit : (CommandFields.mk 0 0b11 0 0).unitExists = false := by decide
theorem test_wellFormed_refuses_reset_data : (CommandFields.mk 0 0 0b11 1).resetTakesNoData = false := by decide
theorem test_wellFormed_refuses_operand : operandInRange 65536 = false := by decide

/-! ### Decoding: words written out from R47 and R55; values of 95_test_vectors.md L2-E -/

theorem test_decode_lpfInit : decode 0b000000000000_00_00_0000000000001010 = .ok (.lpfInit 10) := by decide
theorem test_decode_lpfProcess : decode 0b000000000000_00_01_0000001111111111 = .ok (.lpfProcess 1023) := by decide
theorem test_decode_lpfSetc : decode 0b000000000000_00_10_0000000001111110 = .ok (.lpfSetc 126) := by decide
theorem test_decode_lpfReset : decode 0b000000000000_00_11_0000000000000000 = .ok .lpfReset := by decide
theorem test_decode_hpfInit : decode 0b000000000000_01_00_0000000000001010 = .ok (.hpfInit 10) := by decide
theorem test_decode_hpfProcess : decode 0b000000000000_01_01_1000000000000001 = .ok (.hpfProcess 32769) := by decide
theorem test_decode_hpfSetc : decode 0b000000000000_01_10_0000000000000000 = .ok (.hpfSetc 0) := by decide
theorem test_decode_hpfReset : decode 0b000000000000_01_11_0000000000000000 = .ok .hpfReset := by decide
theorem test_decode_nlpfInit : decode 0b000000000000_10_00_0000000000100000 = .ok (.nlpfInit 32) := by decide
theorem test_decode_nlpfProcess : decode 0b000000000000_10_01_1111111111111111 = .ok (.nlpfProcess 65535) := by decide
theorem test_decode_nlpfSetc : decode 0b000000000000_10_10_0000000001000000 = .ok (.nlpfSetc 64) := by decide
theorem test_decode_nlpfReset : decode 0b000000000000_10_11_0000000000000000 = .ok .nlpfReset := by decide
theorem test_decode_illegal :
    decode 0x000FFFFF = .error .reservedUnit ∧ decode 0x00030001 = .error .resetWithData ∧
      decode 0x00100000 = .error .reservedBits ∧ decode 0xFFFFFFFF = .error .reservedBits := by decide
theorem test_encode_listing :
    encode (.lpfInit 10) = 0x0000000A ∧ encode (.lpfProcess 1023) = 0x000103FF ∧ encode .nlpfReset = 0x000B0000 := by
  decide
theorem test_decodeTableWord : decodeTableWord 32 0x000A0040 = some (.nlpfSetc 64) := by decide

/-! ### The assembler (R60 to R62) -/

theorem test_listingLine :
    listingLine (.lpfProcess 1023) =
      ("lpf.process 1023".toList, "0x000103FF".toList) := by decide
theorem test_assemble_label_comment :
    assembleLine "loop: nlpf.setc 0x40 ; halve".toList = .ok (.nlpfSetc 64) := by decide
theorem test_assemble_pseudo : assembleLine "hpf.construct 10".toList = .ok (.hpfInit 10) := by decide
theorem test_assemble_errors :
    assembleLine "lpf.init 65536".toList = .error .operandOutOfRange ∧
      assembleLine "lpf.reset 0".toList = .error .extraOperand ∧
      assembleLine "lpf.init".toList = .error .missingOperand ∧
      assembleLine "lpf.stop".toList = .error .unknownMnemonic ∧
      assembleLine "lpf.init 0x".toList = .error .badNumber ∧
      assembleLine ": lpf.reset".toList = .error .badLabel := by decide
/-- R60: a decimal operand takes the digits 0 to 9 only, and the two ends of the hexadecimal row have their values. -/
theorem test_assemble_digits :
    assembleLine "lpf.init 0xfA09".toList = .ok (.lpfInit 64009) ∧
      assembleLine "lpf.init 1A".toList = .error .badNumber ∧
      assembleLine "lpf.init 0xG".toList = .error .badNumber := by decide

/-! ### The coefficient functions (95_test_vectors.md L2-A) -/

theorem test_coeffBasic :
    coeffBasic 10 = ⟨11, 116⟩ ∧ coeffBasic 126 = ⟨127, 0⟩ ∧ coeffBasic 127 = ⟨128, 65535⟩ ∧
      coeffBasic 65534 = ⟨65535, 128⟩ ∧ coeffBasic 65535 = ⟨0, 127⟩ := by decide
theorem test_coeffNorm :
    coeffNorm 0 = ⟨0, 0⟩ ∧ coeffNorm 63 = ⟨63, 0⟩ ∧ coeffNorm 64 = ⟨32, 1⟩ ∧ coeffNorm 1000 = ⟨62, 4⟩ ∧
      coeffNorm 65535 = ⟨63, 10⟩ := by decide

/-! ### One command on a small state -/

/-- Unit LPF and unit HPF configured with `raw` and holding `last`; unit NLPF likewise. -/
def configured (raw last : U16) : State :=
  { State.reset with
    lpf := (LowPassRegs.afterReset.setCoeff raw).setLast last
    hpf := (LowPassRegs.afterReset.setCoeff raw).setLast last
    nlpf := (NormRegs.afterReset.setCoeff raw).setLast last }

/-- The state a command leaves, or the state before it if it stopped. -/
def after (i : Instr) (s : State) : State :=
  match exec i s with
  | .next t => t
  | _ => s

theorem test_lpfInit : (after (.lpfInit 10) (configured 63 500)).lpf = ⟨11, 116, 0, true⟩ := by decide
theorem test_lpfProcess :
    (after (.lpfProcess 1023) (configured 10 87)).lpf.last = 166 ∧
      (after (.lpfProcess 1023) (configured 10 87)).responses = [166] := by decide
/-- L2-B: the 32-bit wrap of the sum and the 16-bit truncation of the result, for illegal coefficients. -/
theorem test_lpfProcess_wraps :
    (after (.lpfProcess 65535) (configured 65534 65535)).lpf.last = 64511 ∧
      (after (.lpfProcess 0) (configured 127 1000)).lpf.last = 53240 := by decide
theorem test_lpfSetc : (after (.lpfSetc 126) (configured 10 87)).lpf = ⟨127, 0, 87, true⟩ := by decide
theorem test_lpfReset : (after .lpfReset (configured 10 362)).lpf = ⟨11, 116, 0, true⟩ := by decide
theorem test_hpfInit : (after (.hpfInit 10) State.reset).hpf = ⟨11, 116, 0, true⟩ := by decide
theorem test_hpfProcess :
    (after (.hpfProcess 1023) (configured 10 87)).hpf.last = 166 ∧
      (after (.hpfProcess 1023) (configured 10 87)).responses = [857] := by decide
theorem test_hpfProcess_clamps :
    (after (.hpfProcess 0) (configured 10 1000)).hpf.last = 906 ∧
      (after (.hpfProcess 0) (configured 10 1000)).responses = [0] ∧ highPass .wrap 0 906 = 64630 := by decide
theorem test_hpfSetc : (after (.hpfSetc 0) (configured 10 87)).hpf = ⟨1, 126, 87, true⟩ := by decide
theorem test_hpfReset : (after .hpfReset (configured 10 87)).hpf.last = 0 := by decide
theorem test_nlpfInit : (after (.nlpfInit 1000) State.reset).nlpf = ⟨62, 4, 0, true⟩ := by decide
/-- L2-D: a pre-shifted state with `ash` 4, and the asymmetric re-alignment. -/
theorem test_nlpfProcess :
    (after (.nlpfProcess 1023) (configured 1000 15856)).nlpf.last = 16352 ∧
      (after (.nlpfProcess 0) (configured 63 65535)).nlpf.last = 15 ∧
      (after (.nlpfProcess 60000) (configured 32 100)).nlpf.last = 33184 := by decide
theorem test_nlpfProcess_saturates :
    (after (.nlpfProcess 1023) (configured 65535 0)).nlpf.last = 65535 ∧
      normStep .truncate 63 10 0 1023 = 48144 := by decide
theorem test_nlpfSetc : (after (.nlpfSetc 63) (configured 32 511)).nlpf = ⟨63, 0, 511, true⟩ := by decide
theorem test_nlpfReset : (after .nlpfReset (configured 32 767)).nlpf.last = 0 := by decide

/-! ### The step, errors and ports (95_test_vectors.md L2-F, 30_encoding.md R46) -/

/-- The state a step leaves, or the state before it if it stopped. -/
def stepped (s : State) : State :=
  match step s with
  | .next t => t
  | _ => s

theorem test_step_unconfigured :
    (stepped (State.reset.withFetchWord 32 0x00010005)).responses = [0x00020000] ∧
      (stepped (State.reset.withFetchWord 32 0x00010005)).errSticky = 0b10 := by decide
theorem test_step_illegal :
    stepped (State.reset.withFetchWord 32 0x000D0005) =
      { State.reset with errSticky := 0b01, responses := [0x00010000] } := by decide
theorem test_step_runs_first_word :
    stepped (State.reset.withFetchWord 32 0x00020000) = after (.lpfSetc 0) State.reset := by decide
theorem test_step_offer_then_take :
    (stepped { State.reset with inputs := [PortIn.offer 0x00030000] }).accepted = [0x00030000] ∧
      (stepped { State.reset with accepted := [0x00030000], inputs := [PortIn.take] }).delivered = [0] := by decide
theorem test_step_reset_discards :
    stepped { configured 10 87 with
      accepted := [0x00010005], responses := [7], inputs := [{ PortIn.offer 1 with rst := true }] } = { State.reset with resets := 1 } := by
  decide

/-- R110, R120: a reset that discards a program's only command does not end the program. -/
theorem test_program_discarded :
    (stepped (stepped { State.reset with
      inputs := [PortIn.offer 0x00030000, { PortIn.idle with rst := true }] })).issued =
        [{ word := 0x00030000, fate := .discarded, resets := 0 }] := by decide
/-- R120: a delivered response stays delivered, with a later command in flight when the reset comes. -/
theorem test_program_answered :
    (stepped { State.reset with
      accepted := [2], responses := [0], inputs := [PortIn.take],
      issued := [⟨1, .inFlight, 0⟩, ⟨2, .inFlight, 0⟩] }).hwReset.issued = [⟨1, .answered 0, 0⟩, ⟨2, .discarded, 0⟩] := by
  decide

/-- R109, R120: the program `lpf.init 10`, `lpf.process 5` with a hardware reset between its commands, as its record has
it. Its final state is that after the second one: NOT_CONFIGURED, and the unit not configured. -/
theorem test_program_across_reset :
    let s := State.reset
    let t := { s with issued := [⟨0x0000000A, .answered 0, 0⟩, ⟨0x00010005, .answered 0x00020000, 1⟩], resets := 1 }
    let e := after (.lpfProcess 5) s.hwReset
    s.ProgramEnded [0x0000000A, 0x00010005] t ∧ ProgramFinal [0x0000000A, 0x00010005] s t e ∧
      s.observation [0x0000000A, 0x00010005] t e = { responses := [0, 0x00020000], errSticky := 0b10 } ∧
      e.lpf.cfg = false := by
  refine ⟨⟨rfl, fun last h => ⟨0x00020000, ?_⟩⟩, ⟨_, rfl, rfl⟩, rfl, rfl⟩
  cases h
  rfl

/-! ### Witnesses: the hypotheses of each statement that has some, met together -/

theorem witness_DecodedWordIsTheEncoding : decode 0x000103FF = .ok (.lpfProcess 1023) := by decide
theorem witness_OpcodeMapIsComplete :
    (0x00100000#32 &&& 0xFFFF0000) ∉ ([0x00000000, 0x00010000, 0x00020000, 0x00040000, 0x00050000, 0x00060000,
      0x00080000, 0x00090000, 0x000A0000] : List Word32) ∧
    (0x00100000#32 &&& 0xFFFFFFFF) ∉ ([0x00030000, 0x00070000, 0x000B0000] : List Word32) := by decide
theorem witness_PseudoInstructionsAreInitAndSetc : ':' ∉ "0x40".toList ∧ ';' ∉ "0x40".toList := by decide
theorem witness_BasicCoefficientOverItsDomain :
    (126#16).toNat ≤ 126 ∧ (127 ≤ (127#16).toNat ∧ (127#16).toNat ≤ 65534) ∧
      (127 ≤ (65534#16).toNat ∧ (65534#16).toNat ≤ 65534) ∧ (65535#16).toNat = 65535 := by decide
theorem witness_NormalizedCoefficientOverItsDomain :
    (1 ≤ (1#16).toNat ∧ (63#16).toNat ≤ 63) ∧ (2 ^ (1 + 5) ≤ (64#16).toNat ∧ (64#16).toNat < 2 ^ (1 + 6)) ∧
      (2 ^ (10 + 5) ≤ (65535#16).toNat ∧ (65535#16).toNat < 2 ^ (10 + 6)) := by decide
theorem witness_BitWidthIsHighestSetBit :
    (1#16) ≠ 0 ∧ 16 - clz16 1 ≤ 1 ∧ bitwidth16 1 ≤ 1 ∧ 16 - clz16 0 ≤ 0 := by decide
theorem witness_LegalCoefficientsAreExactly : (126#16).toNat ≤ 126 ∧ ¬ (127#16).toNat ≤ 126 := by decide
theorem witness_LpfProcessResult : (configured 10 87).lpf.cfg = true := by decide
theorem witness_HpfProcessResult : (configured 10 87).hpf.cfg = true := by decide
theorem witness_NlpfProcessResult : (configured 10 87).nlpf.cfg = true := by decide
theorem witness_SetcAndResetTakeEffectNext :
    (configured 10 87).lpf.cfg = true ∧ (configured 10 87).hpf.cfg = true ∧ (configured 10 87).nlpf.cfg = true := by
  decide
theorem witness_UnconfiguredProcessRaises :
    (Instr.hpfProcess 1).op = .process ∧ State.reset.configured (Instr.hpfProcess 1).unit = false := by decide
theorem witness_StickyBitsSetByRaisesOnly :
    decode 0x000C0000 = .error .reservedUnit ∧ decode 0x00010005 = .ok (.lpfProcess 5) ∧
      (Instr.lpfProcess 5).op = .process ∧ State.reset.configured (Instr.lpfProcess 5).unit = false ∧
      (configured 10 87).configured (Instr.lpfProcess 5).unit = true := by decide
theorem witness_StickyBits_step :
    step State.reset = .next State.reset ∧
      step { State.reset with errSticky := 0b11, inputs := [{ PortIn.idle with rst := true }] } =
        .next { State.reset with resets := 1 } := ⟨rfl, rfl⟩
theorem witness_ErrorPriority :
    decode 0x000D0005 = .error .reservedUnit ∧ ({ PortIn.offer 5 with rst := true } : PortIn).rst = true := by decide
theorem witness_ErrorPriority_notConfigured :
    runWord 0x00010005 State.reset = .next { State.reset with errSticky := 0b10, responses := [0x00020000] } ∧
      rspStatus 0x00020000 = 0b10 := ⟨rfl, rfl⟩
theorem witness_ResultOfEachResponse :
    (Instr.lpfReset).op ≠ .process ∧ rspStatus 0x00020000 ≠ 0b00 ∧ (Instr.nlpfProcess 3).op = .process ∧
      (configured 10 87).nlpf.cfg = true := by decide
theorem witness_LpfLegalNeverOverflows : legalRaw 0 ∧ legalRaw 126 := by decide
theorem witness_LpfLegalMonotoneAndBounded :
    legalRaw 126 ∧ (0#16 ≤ 1#16) ∧ 1 ≤ max (0#16).toNat (1#16).toNat := by decide
/-- For `raw` 10 and a held 1023 the fixed points are 928..937 (41_lowpass.md R76): 927 lies below, 938 above. -/
theorem witness_LpfFixedPointInterval :
    legalRaw 10 ∧ (coeffBasic 10).alpha.toNat = 11 ∧ (11 + 1) * (927#16).toNat + 128 ≤ 11 * (1023#16).toNat ∧ 11 * (1023#16).toNat < (11 + 1) * (938#16).toNat ∧
      1023#16 ≠ 0 := by decide
theorem witness_LpfSettlesUnderHeldInput : legalRaw 10 ∧ (0#16 < 928#16) ∧ (937#16 < 1023#16) := by decide
theorem witness_HighPassReconstruction : (87#16 ≤ 1023#16) ∧ (0#16 < 906#16) := by decide
theorem witness_LpfMirrorsOwnedInstance : (configured 10 87).lpf = (configured 10 87).hpf := by decide
theorem witness_NlpfDatapathBounds : (10#4).toNat ≤ 10 ∧ (0#4).toNat ≤ 10 := by decide
theorem witness_NlpfUnityGain :
    ((1023#16).toNat ≤ 1023 ∧ (1023#16).toNat ≤ 1023) ∧ ((1023#16).toNat ≤ 1023 ∧ 1023 < (1024#16).toNat) ∧
      (1023 < (65535#16).toNat ∧ (1023#16).toNat ≤ 1023) := by decide
theorem witness_StepKeepsRegistersCoherent :
    (configured 10 87).Coherent ∧
      step { configured 10 87 with inputs := [PortIn.idle] } = .next (configured 10 87) := ⟨by decide, rfl⟩
theorem witness_ConfiguredBitRule :
    (configured 10 87).configured .hpf = true ∧ State.reset.configured .hpf = false ∧
      step { configured 10 87 with inputs := [{ PortIn.idle with rst := true }] } =
        .next { State.reset with resets := 1 } :=
  ⟨by decide, by decide, rfl⟩
theorem witness_OtherUnitsUnchanged : UnitId.hpf ≠ (Instr.lpfInit 10).unit := by decide
theorem witness_UnitsCommute : (Instr.lpfProcess 5).unit ≠ (Instr.nlpfProcess 5).unit := by decide
theorem witness_UnconfiguredCoefficientsUnread :
    State.Agree State.reset { State.reset with lpf := { LowPassRegs.afterReset with alpha := 7, oma := 9 } } ∧
      step State.reset = .next State.reset :=
  ⟨⟨⟨rfl, rfl, fun h => absurd h (by decide)⟩, ⟨rfl, rfl, fun _ => ⟨rfl, rfl⟩⟩, ⟨rfl, rfl, fun _ => ⟨rfl, rfl⟩⟩,
    rfl, rfl, rfl, rfl, rfl, rfl, rfl⟩, rfl⟩
theorem witness_ConfigurationCommandsIdempotent : (Instr.nlpfSetc 1000).op ≠ .process := by decide
theorem witness_SetcOnUnconfiguredIsInit : State.reset.Coherent ∧ State.reset.configured .nlpf = false := by decide
theorem witness_ReadyCommandsKeepRunErrorFree :
    State.ErrorFree { configured 10 87 with accepted := [0x00010005] } ∧ decode 0x00010005 = .ok (.lpfProcess 5) ∧
      (configured 10 87).Ready (.lpfProcess 5) :=
  ⟨⟨rfl, fun r h => nomatch (h : r ∈ ([] : List Word32))⟩, by decide, fun _ => by decide⟩
theorem witness_StepRunsDecodedCommand :
    ({ configured 10 87 with accepted := [0x00010005], inputs := [PortIn.take] } : State).accepted = [0x00010005] ∧
      decode 0x00010005 = .ok (.lpfProcess 5) ∧ PortIn.take.rst = false := by decide
theorem witness_StepWithoutALegalCommand : State.reset.inputs = [] ∧ State.reset.accepted = [] := by decide
theorem witness_StepWithoutALegalCommand_illegal :
    ({ State.reset with accepted := [0x00030001] } : State).inputs = [] ∧
      ({ State.reset with accepted := [0x00030001] } : State).accepted = 0x00030001 :: [] ∧
      decode 0x00030001 = .error .resetWithData := by decide
theorem witness_HardwareResetDiscardsInFlight :
    ({ PortIn.idle with rst := true } : PortIn).rst = true ∧
      Performs [0x00000000] State.reset (after (.lpfInit 0) State.reset) := ⟨by decide, _, rfl, rfl⟩
theorem witness_OutputPorts :
    Config.DEPTH ≤ ({ State.reset with responses := List.replicate Config.DEPTH 0 } : State).held := by
  simp [State.held]
theorem witness_OutputPorts_offered :
    PortIn.take.rst = false ∧ ({ State.reset with responses := [7] } : State).responses = 7 :: [] ∧
      ({ PortIn.idle with rst := true } : PortIn).rst = true := by decide
theorem witness_PortCycleHandshakes :
    PortIn.take.rst = false ∧ PortIn.take.rspReady = true ∧ (PortIn.offer 5).rspReady = false ∧
      performNext State.reset = .next State.reset := ⟨rfl, rfl, rfl, rfl⟩
theorem witness_OfferedResponseIsStable : PortIn.idle.rst = false ∧ PortIn.idle.rspReady = false := by decide
theorem witness_StepKeepsWithinDepth :
    State.reset.WithinDepth ∧ State.reset.RecordMatches ∧ step State.reset = .next State.reset :=
  ⟨Nat.zero_le _, ⟨rfl, rfl⟩, rfl⟩
theorem witness_StepKeepsResponsesLegal :
    rspLegal 0x00020000 ∧ State.ErrorsRecorded { State.reset with errSticky := 0b10, responses := [0x00020000] } ∧
      step { State.reset with errSticky := 0b10, responses := [0x00020000], inputs := [PortIn.idle] } =
        .next { State.reset with errSticky := 0b10, responses := [0x00020000] } :=
  ⟨by decide, fun r h => by cases List.mem_singleton.mp h; decide, rfl⟩
theorem witness_StepRefinesSequentialMachine :
    (PortIn.offer 5).rst = false ∧
      step { State.reset with inputs := [PortIn.idle] } = .next State.reset := ⟨rfl, rfl⟩
theorem witness_HostedRunIsSequential :
    ({ State.reset with inputs := hostScript [0x0000000A] ++ [PortIn.idle] } : State).inputs =
        hostScript [0x0000000A] ++ [PortIn.idle] ∧
      State.RecordMatches { State.reset with inputs := hostScript [0x0000000A] ++ [PortIn.idle] } ∧
      State.reset.accepted = [] ∧ State.reset.responses = [] := ⟨rfl, ⟨rfl, rfl⟩, rfl, rfl⟩
theorem witness_HostedRunIsSequential_reset :
    let s := { State.reset with inputs := { PortIn.idle with rst := true } :: hostScript [0x00010005] }
    let t := stepped (stepped (stepped s))
    Host.Core.run Sys2Proof.core 3 s = .next t ∧ t.accepted = [] ∧
      ((t.issued.drop s.issued.length).getLast?.map (·.resets)).getD s.resets = t.resets := ⟨rfl, rfl, rfl⟩
theorem witness_TakingHostDrainsEverything :
    ({ State.reset with responses := [0], inputs := List.replicate 1 PortIn.take } : State).held ≤ 1 := by decide

end Sys2Proof.Tests
end

/-! # The bit width of a 16-bit value (00_scope.md R11)

The idea: on values below `2 ^ n`, `leadingZeros n` is the complement to `n` of Mathlib's `Nat.size`, so `bitwidth16` is
`Nat.size` and every fact about its bits is one about the binary length of a number. -/

namespace Sys2Proof.Machine

/-! ### `Nat.size` in terms of bits -/

theorem testBit_eq_false_of_size_le {v j : Nat} (h : v.size ≤ j) : v.testBit j = false :=
  Nat.testBit_eq_false_of_lt (Nat.size_le.mp h)

theorem testBit_size_sub_one {v : Nat} (hv : v ≠ 0) : v.testBit (v.size - 1) = true := by
  have hpos : 0 < v.size := Nat.size_pos.mpr (Nat.pos_of_ne_zero hv)
  have hlow : 2 ^ (v.size - 1) ≤ v := Nat.lt_size.mp (by omega)
  have hhigh : v < 2 ^ (v.size - 1 + 1) := Nat.size_le.mp (by omega)
  exact Nat.testBit_of_two_pow_le_and_two_pow_add_one_gt hlow hhigh

/-! ### The leading zeros and the bit width -/

@[simp] theorem leadingZeros_zero (v : Nat) : leadingZeros 0 v = 0 := rfl

theorem leadingZeros_succ_of_testBit {n v : Nat} (h : v.testBit n = true) : leadingZeros (n + 1) v = 0 :=
  if_pos h

theorem leadingZeros_succ_of_not_testBit {n v : Nat} (h : v.testBit n = false) :
    leadingZeros (n + 1) v = leadingZeros n v + 1 := by
  simp [leadingZeros, h]

theorem leadingZeros_add_size {n v : Nat} (hv : v < 2 ^ n) : leadingZeros n v + v.size = n := by
  induction n with
  | zero => simpa [Nat.size_eq_zero] using hv
  | succ n ih =>
    cases hbit : v.testBit n with
    | true =>
      have hle : v.size ≤ n + 1 := Nat.size_le.mpr hv
      have hlt : n < v.size := Nat.lt_size.mpr (Nat.ge_two_pow_of_testBit hbit)
      rw [leadingZeros_succ_of_testBit hbit]
      omega
    | false =>
      have hlow : v < 2 ^ n := Nat.lt_of_not_le fun hge =>
        Bool.false_ne_true (hbit.symm.trans (Nat.testBit_of_two_pow_le_and_two_pow_add_one_gt hge hv))
      rw [leadingZeros_succ_of_not_testBit hbit, Nat.add_right_comm, ih hlow]

theorem clz16_add_size (v : U16) : clz16 v + v.toNat.size = 16 := leadingZeros_add_size v.isLt

theorem clz16_le (v : U16) : clz16 v ≤ 16 := Nat.le.intro (clz16_add_size v)

/-- Ties R11's `bitwidth16` to the binary length of Mathlib. -/
theorem bitwidth16_eq_size (v : U16) : bitwidth16 v = v.toNat.size := Nat.sub_eq_of_eq_add' (clz16_add_size v).symm

theorem bitwidth16_pos {v : U16} (hv : v ≠ 0) : 1 ≤ bitwidth16 v := by
  rw [bitwidth16_eq_size]
  exact Nat.size_pos.mpr (Nat.pos_of_ne_zero (BitVec.toNat_inj.not.mpr hv))

theorem getLsbD_of_bitwidth16_le {v : U16} {j : Nat} (h : bitwidth16 v ≤ j) : v.getLsbD j = false :=
  testBit_eq_false_of_size_le (bitwidth16_eq_size v ▸ h)

theorem getLsbD_bitwidth16_sub_one {v : U16} (hv : v ≠ 0) : v.getLsbD (bitwidth16 v - 1) = true := by
  rw [bitwidth16_eq_size]
  exact testBit_size_sub_one (BitVec.toNat_inj.not.mpr hv)

theorem bitwidth16_sub_one (v : U16) : bitwidth16 v - 1 = 15 - clz16 v := Nat.sub_right_comm 16 (clz16 v) 1

/-- Settles O8: `bitwidth16` is the binary length of its operand. -/
theorem bitWidthIsHighestSetBit : Obligations.BitWidthIsHighestSetBit := by
  refine ⟨rfl, rfl, fun v => ⟨rfl, clz16_le v, fun j hj => getLsbD_of_bitwidth16_le hj, fun hv => ?_, fun hv => ?_⟩⟩
  · exact bitwidth16_sub_one v ▸ getLsbD_bitwidth16_sub_one hv
  · exact ⟨bitwidth16_pos hv, getLsbD_bitwidth16_sub_one hv, fun j hj => getLsbD_of_bitwidth16_le hj⟩

end Sys2Proof.Machine

/-! # The configured bits (10_state.md R21)

The idea: the three `cfg` bits of a state are one function of the unit, `State.configured`, and every operation of the
model either leaves that function alone, updates it at one unit, or (hardware reset) makes it constantly false. A step
without reset therefore only ever raises it in the pointwise order. -/

namespace Sys2Proof.Machine

/-! ### What each state operation does to the configured bits -/

@[simp] theorem State.setLpf_configured (r : LowPassRegs) (s : State) :
    (s.setLpf r).configured = Function.update s.configured .lpf r.cfg := by
  funext u; cases u <;> rfl

@[simp] theorem State.setHpf_configured (r : LowPassRegs) (s : State) :
    (s.setHpf r).configured = Function.update s.configured .hpf r.cfg := by
  funext u; cases u <;> rfl

@[simp] theorem State.setNlpf_configured (r : NormRegs) (s : State) :
    (s.setNlpf r).configured = Function.update s.configured .nlpf r.cfg := by
  funext u; cases u <;> rfl

@[simp] theorem State.pushResponse_configured (r : Word32) (s : State) :
    (s.pushResponse r).configured = s.configured := rfl

@[simp] theorem State.stick_configured (b : BitVec 2) (s : State) : (s.stick b).configured = s.configured := rfl

@[simp] theorem State.accept_configured (w : Word32) (s : State) : (s.accept w).configured = s.configured := rfl

@[simp] theorem State.hwReset_configured (s : State) (u : UnitId) : s.hwReset.configured u = false := by
  cases u <;> rfl

@[simp] theorem State.deliver_configured (s : State) : s.deliver.configured = s.configured := by
  funext u; cases u <;> simp [State.configured]

@[simp] theorem State.transfer_configured (p : PortIn) (s : State) : (s.transfer p).configured = s.configured := by
  obtain h | h | h | h := transfer_cases p s <;> simp [h]

theorem State.setLpf_configured_of_cfg_eq {r : LowPassRegs} {s : State} (h : r.cfg = s.lpf.cfg) :
    (s.setLpf r).configured = s.configured := by
  rw [State.setLpf_configured, h]
  exact Function.update_eq_self UnitId.lpf s.configured

theorem State.setHpf_configured_of_cfg_eq {r : LowPassRegs} {s : State} (h : r.cfg = s.hpf.cfg) :
    (s.setHpf r).configured = s.configured := by
  rw [State.setHpf_configured, h]
  exact Function.update_eq_self UnitId.hpf s.configured

theorem State.setNlpf_configured_of_cfg_eq {r : NormRegs} {s : State} (h : r.cfg = s.nlpf.cfg) :
    (s.setNlpf r).configured = s.configured := by
  rw [State.setNlpf_configured, h]
  exact Function.update_eq_self UnitId.nlpf s.configured

/-! ### What a command does to the configured bits -/

/-- The shape of PROCESS: an OK response or a raise, neither of which writes a `cfg`. -/
theorem respond_or_raise_keeps_configured {c : Bool} {e : ErrorCause} {v : U16} {s t : State}
    (ht : t.configured = s.configured) :
    ∃ t', (if c then t.respond v else s.raise e) = .next t' ∧ t'.configured = s.configured := by
  cases c with
  | true => exact ⟨_, rfl, ht⟩
  | false => exact ⟨_, rfl, rfl⟩

/-- R21: INIT and SETC set the `cfg` of the unit they are addressed to; no other command writes a `cfg`. -/
theorem exec_configured (i : Instr) (s : State) : ∃ t, exec i s = .next t ∧
    t.configured =
      if i.op == .init || i.op == .setc then Function.update s.configured i.unit true else s.configured := by
  cases i with
  | lpfInit raw | lpfSetc raw => exact ⟨_, rfl, State.setLpf_configured _ s⟩
  | hpfInit raw | hpfSetc raw => exact ⟨_, rfl, State.setHpf_configured _ s⟩
  | nlpfInit raw | nlpfSetc raw => exact ⟨_, rfl, State.setNlpf_configured _ s⟩
  | lpfReset => exact ⟨_, rfl, State.setLpf_configured_of_cfg_eq rfl⟩
  | hpfReset => exact ⟨_, rfl, State.setHpf_configured_of_cfg_eq rfl⟩
  | nlpfReset => exact ⟨_, rfl, State.setNlpf_configured_of_cfg_eq rfl⟩
  | lpfProcess x => exact respond_or_raise_keeps_configured (State.setLpf_configured_of_cfg_eq rfl)
  | hpfProcess x => exact respond_or_raise_keeps_configured (State.setHpf_configured_of_cfg_eq rfl)
  | nlpfProcess x => exact respond_or_raise_keeps_configured (State.setNlpf_configured_of_cfg_eq rfl)

/-- R97: a PROCESS to an unconfigured unit raises NOT_CONFIGURED. -/
theorem exec_process_of_not_configured {i : Instr} {s : State} (hop : i.op = .process)
    (hcfg : s.configured i.unit = false) : exec i s = s.raise .notConfigured := by
  cases i with
  | lpfProcess x | hpfProcess x | nlpfProcess x => exact if_neg (Bool.eq_false_iff.mp hcfg)
  | lpfInit | lpfSetc | lpfReset | hpfInit | hpfSetc | hpfReset | nlpfInit | nlpfSetc | nlpfReset => cases hop

theorem rspWord_notConfigured : ErrorCause.notConfigured.rspWord = 0x00020000 := by decide

theorem exec_configured_apply {i : Instr} {s t : State} (h : exec i s = .next t) (u : UnitId) :
    t.configured u = (s.configured u || (i.unit == u && (i.op == .init || i.op == .setc))) := by
  obtain ⟨t', ht', hcfg⟩ := exec_configured i s
  cases ht'.symm.trans h
  rw [hcfg]
  cases hset : i.op == .init || i.op == .setc with
  | false => simp
  | true =>
    by_cases hu : i.unit = u
    · subst hu; simp
    · simp [hu, Function.update_of_ne (Ne.symm hu)]

/-! ### No step without reset clears a configured bit -/

theorem exec_configured_le {i : Instr} {s t : State} (h : exec i s = .next t) : s.configured ≤ t.configured := by
  intro u
  rw [exec_configured_apply h u]
  exact Bool.left_le_or _ _

theorem runWord_configured_le {w : Word32} {s t : State} (h : runWord w s = .next t) :
    s.configured ≤ t.configured := by
  cases hd : decode w with
  | ok i => exact exec_configured_le (runWord_ok hd s ▸ h)
  | error e =>
    rw [runWord_error hd, raise_next_iff] at h
    exact le_of_eq (by simp [h])

theorem performNext_configured_le {s t : State} (h : performNext s = .next t) : s.configured ≤ t.configured := by
  cases ha : s.accepted with
  | nil =>
    rw [performNext_nil ha] at h
    cases h
    exact le_rfl
  | cons w ws =>
    rw [performNext_cons ha] at h
    exact runWord_configured_le (s := { s with accepted := ws }) h

theorem step_configured_le_or_rst {s t : State} (h : step s = .next t) :
    s.configured ≤ t.configured ∨ ∃ p rest, s.inputs = p :: rest ∧ p.rst = true := by
  obtain ⟨-, hperf⟩ | ⟨p, ps, hin, hrst, -⟩ | ⟨p, ps, m, -, -, hperf, rfl⟩ := step_next_cases h
  · exact .inl (performNext_configured_le hperf)
  · exact .inr ⟨p, ps, hin, hrst⟩
  · rw [State.transfer_configured]
    exact .inl (performNext_configured_le (s := { s with inputs := ps }) hperf)

/-- R111: a step whose port cycle drives `rst` is a hardware reset. -/
theorem step_of_rst {s : State} {p : PortIn} {rest : List PortIn} (hin : s.inputs = p :: rest) (hrst : p.rst = true) :
    step s = .next (State.hwReset { s with inputs := rest }) :=
  (step_cons hin).trans (portCycle_rst hrst _)

/-- Settles O42, clause by clause: the commands set `cfg` as R21 says and an unconfigured PROCESS raises; a step that
lowers a bit is not one of those that only raise bits, so it is a reset cycle; and a reset cycle lowers them all. -/
theorem configuredBitRule : Obligations.ConfiguredBitRule := by
  refine ⟨fun i s => ?commands, fun s t u hstep hs ht => ?clears, fun s p rest hin hrst => ?reset⟩
  case commands =>
    obtain ⟨t, hexec, -⟩ := exec_configured i s
    refine ⟨t, hexec, exec_configured_apply hexec, fun hop hcfg => ?_⟩
    rw [exec_process_of_not_configured hop hcfg, raise_next_iff] at hexec
    simp [hexec, rspWord_notConfigured]
  case clears =>
    refine (step_configured_le_or_rst hstep).resolve_left fun hle => ?_
    have hkept : t.configured u = true := Bool.le_iff_imp.mp (hle u) hs
    exact Bool.false_ne_true (ht.symm.trans hkept)
  case reset =>
    exact ⟨_, step_of_rst hin hrst, State.hwReset_configured _⟩

end Sys2Proof.Machine

/-! # Commands to different units commute (20_memory.md R44)

The idea: a command is confined to the unit it is addressed to. It writes no other unit, it sets sticky bits and appends
one response, and which bits, which response and which registers of its own unit come out depends on that unit's
registers alone. Two operations confined to different units commute, because each leaves what the other reads
unchanged and setting bits commutes. -/

namespace Sys2Proof.Machine

/-! ### Agreement of two states on one unit -/

theorem State.SameUnit.refl (u : UnitId) (s : State) : State.SameUnit u s s := by cases u <;> rfl

theorem State.SameUnit.symm {u : UnitId} {s t : State} (h : State.SameUnit u s t) : State.SameUnit u t s := by
  cases u <;> exact Eq.symm h

theorem State.SameUnit.trans {u : UnitId} {s t m : State} (h : State.SameUnit u s t) (h' : State.SameUnit u t m) :
    State.SameUnit u s m := by
  cases u <;> exact Eq.trans h h'

theorem State.SameUnit.configured_eq {u : UnitId} {s t : State} (h : State.SameUnit u s t) :
    s.configured u = t.configured u := by
  cases u with
  | lpf | hpf => exact congrArg LowPassRegs.cfg h
  | nlpf => exact congrArg NormRegs.cfg h

/-- The registers of R17 are those of the three units and `ERR_STICKY`. -/
theorem State.sameRegs_iff (s t : State) :
    s.SameRegs t ↔ (∀ u, State.SameUnit u s t) ∧ s.errSticky = t.errSticky := by
  constructor
  · rintro ⟨hl, hh, hn, he⟩
    refine ⟨fun u => ?_, he⟩
    cases u with
    | lpf => exact hl
    | hpf => exact hh
    | nlpf => exact hn
  · rintro ⟨hu, he⟩
    exact ⟨hu .lpf, hu .hpf, hu .nlpf, he⟩

/-! ### What one command to a unit does outside that unit -/

/-- From `s` to `t`, at most the registers of unit `u` are written, the sticky bits `b` are set and the response `r` is
appended (R17, 60_exceptions.md R99). -/
structure State.AnswersAt (u : UnitId) (b : BitVec 2) (r : Word32) (s t : State) : Prop where
  frame : ∀ w, w ≠ u → State.SameUnit w s t
  sticky : t.errSticky = s.errSticky ||| b
  responses : t.responses = s.responses ++ [r]

theorem State.setLpf_answersAt (l : LowPassRegs) (r : Word32) (s : State) :
    State.AnswersAt .lpf 0 r s ((s.setLpf l).pushResponse r) where
  frame
    | .lpf, h => absurd rfl h
    | .hpf, _ | .nlpf, _ => rfl
  sticky := BitVec.or_zero.symm
  responses := rfl

theorem State.setHpf_answersAt (l : LowPassRegs) (r : Word32) (s : State) :
    State.AnswersAt .hpf 0 r s ((s.setHpf l).pushResponse r) where
  frame
    | .hpf, h => absurd rfl h
    | .lpf, _ | .nlpf, _ => rfl
  sticky := BitVec.or_zero.symm
  responses := rfl

theorem State.setNlpf_answersAt (l : NormRegs) (r : Word32) (s : State) :
    State.AnswersAt .nlpf 0 r s ((s.setNlpf l).pushResponse r) where
  frame
    | .nlpf, h => absurd rfl h
    | .lpf, _ | .hpf, _ => rfl
  sticky := BitVec.or_zero.symm
  responses := rfl

/-- A raise writes no unit's registers (R99). -/
theorem State.stick_pushResponse_sameUnit (u : UnitId) (b : BitVec 2) (r : Word32) (s : State) :
    State.SameUnit u s ((s.stick b).pushResponse r) := by
  cases u <;> rfl

/-! ### Operations confined to one unit -/

/-- The operation `f` is total and confined to unit `u`: on two states that agree on `u` it writes the same registers
into `u`, sets the same sticky bits and gives the same response, and it leaves every other unit as it is. -/
def ConfinedTo (u : UnitId) (f : State → Result) : Prop :=
  ∀ s s' : State, State.SameUnit u s s' → ∃ t t' b r, f s = .next t ∧ f s' = .next t' ∧
    State.SameUnit u t t' ∧ State.AnswersAt u b r s t ∧ State.AnswersAt u b r s' t'

theorem confinedTo_setLpf_respond (f : LowPassRegs → LowPassRegs) (v : LowPassRegs → U16) :
    ConfinedTo .lpf fun s => (s.setLpf (f s.lpf)).respond (v s.lpf) := by
  intro s s' (h : s.lpf = s'.lpf)
  refine ⟨_, _, 0, rspWord .ok (v s.lpf), rfl, rfl, congrArg f h, State.setLpf_answersAt _ _ s, ?_⟩
  rw [h]
  exact State.setLpf_answersAt _ _ s'

theorem confinedTo_setHpf_respond (f : LowPassRegs → LowPassRegs) (v : LowPassRegs → U16) :
    ConfinedTo .hpf fun s => (s.setHpf (f s.hpf)).respond (v s.hpf) := by
  intro s s' (h : s.hpf = s'.hpf)
  refine ⟨_, _, 0, rspWord .ok (v s.hpf), rfl, rfl, congrArg f h, State.setHpf_answersAt _ _ s, ?_⟩
  rw [h]
  exact State.setHpf_answersAt _ _ s'

theorem confinedTo_setNlpf_respond (f : NormRegs → NormRegs) (v : NormRegs → U16) :
    ConfinedTo .nlpf fun s => (s.setNlpf (f s.nlpf)).respond (v s.nlpf) := by
  intro s s' (h : s.nlpf = s'.nlpf)
  refine ⟨_, _, 0, rspWord .ok (v s.nlpf), rfl, rfl, congrArg f h, State.setNlpf_answersAt _ _ s, ?_⟩
  rw [h]
  exact State.setNlpf_answersAt _ _ s'

theorem confinedTo_raise (u : UnitId) (c : ErrorCause) : ConfinedTo u fun s => s.raise c := by
  have answers (s : State) : State.AnswersAt u c.stickyBit c.rspWord s ((s.stick c.stickyBit).pushResponse c.rspWord) :=
    ⟨fun w _ => State.stick_pushResponse_sameUnit w _ _ s, rfl, rfl⟩
  intro s s' h
  refine ⟨_, _, c.stickyBit, c.rspWord, rfl, rfl, ?_, answers s, answers s'⟩
  exact ((State.stick_pushResponse_sameUnit u _ _ s).symm.trans h).trans (State.stick_pushResponse_sameUnit u _ _ s')

/-- The shape of PROCESS (R97): the `cfg` bit it reads is one of the unit's own. -/
theorem ConfinedTo.orRaise {u : UnitId} {f : State → Result} (hf : ConfinedTo u f) (c : ErrorCause) :
    ConfinedTo u fun s => if s.configured u then f s else s.raise c := by
  intro s s' h
  have hcfg : s.configured u = s'.configured u := h.configured_eq
  cases hs : s.configured u with
  | true => simpa [← hcfg, hs] using hf s s' h
  | false => simpa [← hcfg, hs] using confinedTo_raise u c s s' h

/-- R17: a command reads and writes the registers of its own unit only. -/
theorem exec_confinedTo (i : Instr) : ConfinedTo i.unit (exec i) := by
  cases i with
  | lpfInit raw => exact confinedTo_setLpf_respond (fun l => (l.setCoeff raw).setLast 0) fun _ => 0
  | lpfSetc raw => exact confinedTo_setLpf_respond (·.setCoeff raw) fun _ => 0
  | lpfReset => exact confinedTo_setLpf_respond (·.setLast 0) fun _ => 0
  | lpfProcess x =>
    exact (confinedTo_setLpf_respond (fun l => l.setLast (l.output x)) (·.output x)).orRaise .notConfigured
  | hpfInit raw => exact confinedTo_setHpf_respond (fun l => (l.setCoeff raw).setLast 0) fun _ => 0
  | hpfSetc raw => exact confinedTo_setHpf_respond (·.setCoeff raw) fun _ => 0
  | hpfReset => exact confinedTo_setHpf_respond (·.setLast 0) fun _ => 0
  | hpfProcess x =>
    exact (confinedTo_setHpf_respond (fun l => l.setLast (l.output x))
      fun l => highPass Config.HP_UNDERFLOW x (l.output x)).orRaise .notConfigured
  | nlpfInit raw => exact confinedTo_setNlpf_respond (fun l => (l.setCoeff raw).setLast 0) fun _ => 0
  | nlpfSetc raw => exact confinedTo_setNlpf_respond (·.setCoeff raw) fun _ => 0
  | nlpfReset => exact confinedTo_setNlpf_respond (·.setLast 0) fun _ => 0
  | nlpfProcess x =>
    exact (confinedTo_setNlpf_respond (fun l => l.setLast (l.output x)) (·.output x)).orRaise .notConfigured

/-! ### Operations confined to different units commute -/

theorem ConfinedTo.exists_next {u : UnitId} {f : State → Result} (hf : ConfinedTo u f) (s : State) :
    ∃ t, f s = .next t ∧ ∀ w, w ≠ u → State.SameUnit w s t := by
  obtain ⟨t, _, _, _, ht, _, _, answers, _⟩ := hf s s (.refl u s)
  exact ⟨t, ht, answers.frame⟩

/-- A confined operation does the same from `s` as from a state that an operation on another unit has left behind. -/
theorem ConfinedTo.exists_next_pair {u : UnitId} {f : State → Result} (hf : ConfinedTo u f) {s t m : State}
    (hsm : State.SameUnit u s m) (ht : f s = .next t) :
    ∃ t' b r, f m = .next t' ∧ State.SameUnit u t t' ∧ State.AnswersAt u b r s t ∧ State.AnswersAt u b r m t' := by
  obtain ⟨t₀, t', b, r, ht₀, ht', hsame, answers, answers'⟩ := hf s m hsm
  cases ht.symm.trans ht₀
  exact ⟨t', b, r, ht', hsame, answers, answers'⟩

/-- The diamond of R44: the operations at `p` and at `q`, in both orders. At unit `p` and at unit `q` both ends agree
because the operation there did the same twice; a third unit is written by neither. -/
theorem ConfinedTo.commute {p q : UnitId} {f g : State → Result} (hf : ConfinedTo p f) (hg : ConfinedTo q g)
    (hpq : p ≠ q) (s : State) : ∃ t tg u uf rf rg,
      f s = .next t ∧ g t = .next tg ∧ g s = .next u ∧ f u = .next uf ∧
      tg.SameRegs uf ∧ tg.responses = s.responses ++ [rf, rg] ∧ uf.responses = s.responses ++ [rg, rf] := by
  obtain ⟨t, ht, t_frame⟩ := hf.exists_next s
  obtain ⟨u, hu, u_frame⟩ := hg.exists_next s
  obtain ⟨uf, bf, rf, huf, same_p, f_at_s, f_at_u⟩ := hf.exists_next_pair (u_frame p hpq) ht
  obtain ⟨tg, bg, rg, htg, same_q, g_at_s, g_at_t⟩ := hg.exists_next_pair (t_frame q hpq.symm) hu
  refine ⟨t, tg, u, uf, rf, rg, ht, htg, hu, huf, (State.sameRegs_iff tg uf).mpr ⟨fun w => ?units, ?sticky⟩, ?_, ?_⟩
  case units =>
    by_cases hp : w = p
    · subst hp
      exact (g_at_t.frame w hpq).symm.trans same_p
    · by_cases hq : w = q
      · subst hq
        exact same_q.symm.trans (f_at_u.frame w hp)
      · have tg_s : State.SameUnit w tg s := ((t_frame w hp).trans (g_at_t.frame w hq)).symm
        exact (tg_s.trans (u_frame w hq)).trans (f_at_u.frame w hp)
  case sticky =>
    calc tg.errSticky
      _ = s.errSticky ||| bf ||| bg := by rw [g_at_t.sticky, f_at_s.sticky]
      _ = s.errSticky ||| bg ||| bf := by rw [BitVec.or_assoc, BitVec.or_comm bf, BitVec.or_assoc]
      _ = uf.errSticky := by rw [f_at_u.sticky, g_at_s.sticky]
  · simp [g_at_t.responses, f_at_s.responses]
  · simp [f_at_u.responses, g_at_s.responses]

/-- Settles O44: both commands are confined to their units, and the units differ. -/
theorem unitsCommute : Obligations.UnitsCommute :=
  fun i j s h => (exec_confinedTo i).commute (exec_confinedTo j) h s

end Sys2Proof.Machine

/-! # The opcode map (30_encoding.md R55)

The idea: `decode` and `encode` are inverse to each other, field by field. So each row of the map is the word of one
command, and a word that no row matches is the word of none: `decode` cannot have accepted it. -/

namespace Sys2Proof

/-! ### Codes and fields, back and forth -/

theorem UnitId.code_eq_of_ofCode {c : BitVec 2} {u : UnitId} (h : UnitId.ofCode c = some u) : u.code = c := by
  revert c
  cases u <;> decide

theorem Op.code_ofCode (c : BitVec 2) : (Op.ofCode c).code = c := by
  revert c
  decide

/-- RESET takes no operand (R51). -/
theorem Instr.data_eq_zero_of_op_reset {i : Instr} (h : i.op = .reset) : i.data = 0 := by
  cases i with
  | lpfReset | hpfReset | nlpfReset => rfl
  | lpfInit | lpfProcess | lpfSetc | hpfInit | hpfProcess | hpfSetc | nlpfInit | nlpfProcess | nlpfSetc => cases h

theorem Instr.data_ofParts {u : UnitId} {o : Op} {d : U16} (h : o = .reset → d = 0) :
    (Instr.ofParts u o d).data = d := by
  cases o with
  | reset => rw [h rfl, Instr.data_eq_zero_of_op_reset (Instr.op_ofParts u .reset 0)]
  | init | process | setc => cases u <;> rfl

theorem decodeFields_fields (i : Instr) : decodeFields i.fields = .ok i := by
  have no_data : i.op = .reset → i.data = 0 := Instr.data_eq_zero_of_op_reset
  simpa [decodeFields, Instr.fields, UnitId.ofCode_code, Op.ofCode_code, Instr.ofParts_self] using no_data

theorem decodeFields_ok_cases {f : CommandFields} {i : Instr} (h : decodeFields f = .ok i) :
    f.rsv = 0 ∧ ∃ u, UnitId.ofCode f.unit = some u ∧ (Op.ofCode f.op = .reset → f.data = 0) ∧
      i = Instr.ofParts u (Op.ofCode f.op) f.data := by
  unfold decodeFields at h
  split at h
  · cases h
  next hrsv =>
    split at h
    · cases h
    next u hunit =>
      split at h
      · cases h
      next hdata =>
        cases h
        exact ⟨not_not.mp hrsv, u, hunit, not_and_not_right.mp hdata, rfl⟩

theorem fields_eq_of_decodeFields {f : CommandFields} {i : Instr} (h : decodeFields f = .ok i) : i.fields = f := by
  obtain ⟨hrsv, u, hunit, hdata, rfl⟩ := decodeFields_ok_cases h
  simp only [Instr.fields, Instr.unit_ofParts, Instr.op_ofParts, Instr.data_ofParts hdata,
    UnitId.code_eq_of_ofCode hunit, Op.code_ofCode, ← hrsv]

/-! ### Words -/

theorem decode_encode (i : Instr) : decode (encode i) = .ok i := by
  rw [decode, encode, CommandFields.ofWord_toWord, decodeFields_fields]

/-- A row of the opcode map is the upper half of its command's word (R55). -/
theorem decode_row (u : UnitId) (o : Op) {row : BitVec 16} (hrow : 0#12 ++ u.code ++ o.code = row) {d : U16}
    (hd : o = .reset → d = 0) : decode (row ++ d) = .ok (Instr.ofParts u o d) := by
  have hword : encode (Instr.ofParts u o d) = row ++ d := by
    rw [encode, Instr.fields, Instr.unit_ofParts, Instr.op_ofParts, Instr.data_ofParts hd, ← hrow]
    rfl
  rw [← hword, decode_encode]

theorem encode_eq_of_decode {w : Word32} {i : Instr} (h : decode w = .ok i) : encode i = w := by
  rw [encode, fields_eq_of_decodeFields h, CommandFields.toWord_ofWord]

/-! ### The rows of the opcode map and their masks -/

/-- R55: the nine rows with an operand, under the mask `0xFFFF0000`. -/
def operandRows : List Word32 :=
  [0x00000000, 0x00010000, 0x00020000, 0x00040000, 0x00050000, 0x00060000, 0x00080000, 0x00090000, 0x000A0000]

/-- R55: the three RESET rows, under the mask `0xFFFFFFFF`. -/
def resetRows : List Word32 := [0x00030000, 0x00070000, 0x000B0000]

/-- The mask of an operand row clears DATA and keeps the other fields. -/
theorem toWord_and_highMask (f : CommandFields) : f.toWord &&& 0xFFFF0000 = { f with data := 0 }.toWord := by
  have hmask : (0xFFFF0000 : Word32) = BitVec.allOnes 16 ++ 0#16 := by decide
  rw [hmask, CommandFields.toWord, BitVec.and_append, BitVec.and_allOnes, BitVec.and_zero]
  rfl

theorem encode_and_mem_operandRows {i : Instr} (h : i.op ≠ .reset) : encode i &&& 0xFFFF0000 ∈ operandRows := by
  have rows : ∀ u o, o ≠ Op.reset → CommandFields.toWord ⟨0, UnitId.code u, o.code, 0⟩ ∈ operandRows := by
    intro u o
    cases u <;> cases o <;> decide
  rw [encode, toWord_and_highMask]
  exact rows i.unit i.op h

theorem encode_and_mem_resetRows {i : Instr} (h : i.op = .reset) : encode i &&& 0xFFFFFFFF ∈ resetRows := by
  cases i with
  | lpfReset | hpfReset | nlpfReset => decide
  | lpfInit | lpfProcess | lpfSetc | hpfInit | hpfProcess | hpfSetc | nlpfInit | nlpfProcess | nlpfSetc => cases h

theorem exists_decode_error_of_no_row {w : Word32} (hoperand : w &&& 0xFFFF0000 ∉ operandRows)
    (hreset : w &&& 0xFFFFFFFF ∉ resetRows) : ∃ e, decode w = .error e := by
  cases hd : decode w with
  | error e => exact ⟨e, rfl⟩
  | ok i =>
    have hw : encode i = w := encode_eq_of_decode hd
    by_cases hop : i.op = .reset
    · exact absurd (hw ▸ encode_and_mem_resetRows hop) hreset
    · exact absurd (hw ▸ encode_and_mem_operandRows hop) hoperand

end Sys2Proof

namespace Sys2Proof.Machine

/-- R98, R100: ILLEGAL_COMMAND sets bit 0 of `ERR_STICKY`, returns `0x00010000` and writes nothing else. -/
theorem runWord_of_decode_error {w : Word32} {e : Illegal} (h : decode w = .error e) (s : State) :
    runWord w s = .next { s with errSticky := s.errSticky ||| 0b01, responses := s.responses ++ [0x00010000] } := by
  have hrsp : ErrorCause.illegalCommand.rspWord = 0x00010000 := by decide
  rw [runWord_error h, raise_next_iff, hrsp]
  rfl

/-- Settles O3: each row of the map is the encoding of its command, and a word that no row matches is the encoding of
none, so it is illegal. -/
theorem opcodeMapIsComplete : Obligations.OpcodeMapIsComplete := by
  refine ⟨fun d => ?operands, decode_encode .lpfReset, decode_encode .hpfReset, decode_encode .nlpfReset,
    fun w hoperand hreset s => ?illegal⟩
  case operands =>
    exact ⟨decode_row .lpf .init (by decide) nofun, decode_row .lpf .process (by decide) nofun,
      decode_row .lpf .setc (by decide) nofun, decode_row .hpf .init (by decide) nofun,
      decode_row .hpf .process (by decide) nofun, decode_row .hpf .setc (by decide) nofun,
      decode_row .nlpf .init (by decide) nofun, decode_row .nlpf .process (by decide) nofun,
      decode_row .nlpf .setc (by decide) nofun⟩
  case illegal =>
    obtain ⟨e, he⟩ := exists_decode_error_of_no_row hoperand hreset
    exact runWord_of_decode_error he s

end Sys2Proof.Machine

/-! # STATUS and RESULT of every response (30_encoding.md R54)

The idea: a command either is ready and answers OK, with a RESULT that its kind fixes, or is a PROCESS to an
unconfigured unit and answers the one response of NOT_CONFIGURED. -/

namespace Sys2Proof.Machine

/-! ### The fields of a response word -/

@[simp] theorem rspStatus_rspWord (st : Status) (v : U16) : rspStatus (rspWord st v) = st.code := by
  unfold rspStatus rspWord
  rw [BitVec.extractLsb'_append_eq_of_le le_rfl]
  exact BitVec.extractLsb'_append_eq_right

@[simp] theorem rspResult_rspWord (st : Status) (v : U16) : rspResult (rspWord st v) = v :=
  BitVec.extractLsb'_append_eq_right

/-! ### Ready commands and the others -/

/-- R54: what RESULT `v` an OK response to `i` carries, from the state `t` that the command leaves. -/
def IsOkResult (t : State) (v : U16) : Instr → Prop
  | .lpfProcess _ => v = t.lpf.last
  | .nlpfProcess _ => v = t.nlpf.last
  | .hpfProcess x => v.toNat = x.toNat - t.hpf.last.toNat
  | _ => v = 0

theorem IsOkResult.eq_zero {t : State} {v : U16} {i : Instr} (h : IsOkResult t v i) (hop : i.op ≠ .process) :
    v = 0 := by
  cases i with
  | lpfProcess | hpfProcess | nlpfProcess => exact absurd rfl hop
  | lpfInit | lpfSetc | lpfReset | hpfInit | hpfSetc | hpfReset | nlpfInit | nlpfSetc | nlpfReset => exact h

/-- The clamped difference of R78 is subtraction of natural numbers. -/
theorem highPass_clamp_toNat (x low : U16) : (highPass .clamp x low).toNat = x.toNat - low.toNat := by
  obtain hle | hlt := le_or_gt low.toNat x.toNat
  · exact highPass_of_le .clamp hle
  · rw [highPass_clamp_of_lt hlt, Nat.sub_eq_zero_of_le hlt.le]
    rfl

theorem exec_ok_of_ready {i : Instr} {s : State} (h : s.Ready i) : ∃ t v, exec i s = .next t ∧
    t.responses = s.responses ++ [rspWord .ok v] ∧ IsOkResult t v i := by
  cases i with
  | lpfInit | lpfSetc | lpfReset | hpfInit | hpfSetc | hpfReset | nlpfInit | nlpfSetc | nlpfReset =>
    exact ⟨_, 0, rfl, rfl, rfl⟩
  | lpfProcess x => exact ⟨_, s.lpf.output x, if_pos (h rfl), rfl, rfl⟩
  | nlpfProcess x => exact ⟨_, s.nlpf.output x, if_pos (h rfl), rfl, rfl⟩
  | hpfProcess x => exact ⟨_, _, if_pos (h rfl), rfl, highPass_clamp_toNat x (s.hpf.output x)⟩

theorem State.not_ready_iff {s : State} {i : Instr} :
    ¬ s.Ready i ↔ i.op = .process ∧ s.configured i.unit = false := by
  simp [State.Ready]

/-- Settles O29: a ready command answers OK with the RESULT of its kind; any other raises NOT_CONFIGURED. -/
theorem resultOfEachResponse : Obligations.ResultOfEachResponse := by
  intro i s
  by_cases hready : s.Ready i
  case pos =>
    obtain ⟨t, v, hexec, hresp, hv⟩ := exec_ok_of_ready hready
    refine ⟨t, rspWord .ok v, hexec, hresp, ?_⟩
    rw [rspStatus_rspWord, rspResult_rspWord]
    refine ⟨fun hop => ⟨rfl, hv.eq_zero hop⟩, fun hne => absurd rfl hne, fun hop => iff_of_true rfl (hready hop),
      ?_, ?_, ?_⟩ <;> rintro x rfl - <;> exact hv
  case neg =>
    obtain ⟨hop, hcfg⟩ := State.not_ready_iff.mp hready
    refine ⟨_, ErrorCause.notConfigured.rspWord, exec_process_of_not_configured hop hcfg, rfl, ?_⟩
    rw [ErrorCause.rspWord, rspStatus_rspWord, rspResult_rspWord]
    refine ⟨fun hne => absurd hop hne, fun _ => rfl, fun _ => ?_, ?_, ?_, ?_⟩
    · simp [hcfg, ErrorCause.status, Status.code]
    all_goals
      rintro x rfl hset
      exact absurd (hset.symm.trans hcfg) Bool.noConfusion

end Sys2Proof.Machine

/-! # The coefficient functions over the whole u16 domain (40_coefficient.md R63 to R68)

The idea: `CoeffBasic` is arithmetic of 16-bit words, `raw + 1` and `127 - alpha`, and the rows of R65 say where these
wrap. `CoeffNorm` shifts `raw` down until its highest bit is inside the window, so narrowing the two results loses nothing
and the rows of R68 are read off the bit width. -/

namespace Sys2Proof.Machine

/-! ### `CoeffBasic` -/

theorem coeffBasic_alpha (raw : U16) : (coeffBasic raw).alpha = raw + 1 := by
  calc (coeffBasic raw).alpha
    _ = BitVec.ofInt 16 (raw.toNat : Int) + BitVec.ofInt 16 1 := BitVec.ofInt_add ..
    _ = raw + 1 := by simp

/-- R22's relation between the two words; it holds for every raw coefficient when read modulo `2 ^ 16`. -/
theorem coeffBasic_oma (raw : U16) : (coeffBasic raw).oma = 127 - (coeffBasic raw).alpha := by
  calc (coeffBasic raw).oma
    _ = BitVec.ofInt 16 (127 - ((coeffBasic raw).alpha.toNat : Int)) :=
      congrArg (BitVec.ofInt 16) (sub_right_comm 128 ((coeffBasic raw).alpha.toNat : Int) 1)
    _ = 127 - (coeffBasic raw).alpha := by simp [sub_eq_add_neg, BitVec.ofInt_add, BitVec.ofInt_neg]

theorem coeffBasic_alpha_toNat (raw : U16) : (coeffBasic raw).alpha.toNat = (raw.toNat + 1) % 2 ^ 16 := by
  rw [coeffBasic_alpha]
  exact BitVec.toNat_add raw 1

theorem coeffBasic_oma_toNat (raw : U16) :
    (coeffBasic raw).oma.toNat = (2 ^ 16 - (coeffBasic raw).alpha.toNat + 127) % 2 ^ 16 := by
  rw [coeffBasic_oma]
  exact BitVec.toNat_sub 127 _

/-- Settles O9: `127 - alpha` is negative, and wraps, for `alpha` from 128; `alpha` itself wraps only at raw 65535. -/
theorem basicCoefficientOverItsDomain : Obligations.BasicCoefficientOverItsDomain := by
  intro raw
  have halpha := coeffBasic_alpha_toNat raw
  have homa := coeffBasic_oma_toNat raw
  exact ⟨halpha, by omega, by omega, by omega⟩

/-! ### `CoeffNorm` -/

theorem bitwidth16_eq_succ {v : U16} {n : Nat} (hlow : 2 ^ n ≤ v.toNat) (hhigh : v.toNat < 2 ^ (n + 1)) :
    bitwidth16 v = n + 1 := by
  rw [bitwidth16_eq_size]
  exact le_antisymm (Nat.size_le.mpr hhigh) (Nat.lt_size.mpr hlow)

theorem bitwidth16_le_iff {v : U16} {n : Nat} : bitwidth16 v ≤ n ↔ v.toNat < 2 ^ n := by
  rw [bitwidth16_eq_size, Nat.size_le]

theorem bitwidth16_le (v : U16) : bitwidth16 v ≤ 16 := bitwidth16_le_iff.mpr v.isLt

/-- The two branches of `normShift` are one subtraction of natural numbers. -/
theorem normShift_eq_sub (raw : U16) : normShift raw = bitwidth16 raw - Config.NWIN := by
  unfold normShift
  split
  · rfl
  next hfits => exact (Nat.sub_eq_zero_of_le (Nat.le_of_not_gt hfits)).symm

/-- After the shift of R67 the value fits the window. -/
theorem div_two_pow_normShift_lt (raw : U16) : raw.toNat / 2 ^ normShift raw < 2 ^ Config.NWIN := by
  have hwidth : bitwidth16 raw ≤ Config.NWIN + normShift raw := by
    rw [normShift_eq_sub]
    exact le_add_tsub
  rw [Nat.div_lt_iff_lt_mul (Nat.two_pow_pos _), ← Nat.pow_add]
  exact bitwidth16_le_iff.mp hwidth

theorem coeffNorm_alpha_toNat (raw : U16) : (coeffNorm raw).alpha.toNat = raw.toNat / 2 ^ normShift raw := by
  rw [coeffNorm, BitVec.toNat_ofNat, Nat.shiftRight_eq_div_pow, Nat.mod_eq_of_lt (div_two_pow_normShift_lt raw)]

theorem normShift_le (raw : U16) : normShift raw ≤ 10 :=
  normShift_eq_sub raw ▸ Nat.sub_le_sub_right (bitwidth16_le raw) Config.NWIN

theorem coeffNorm_ash_toNat (raw : U16) : (coeffNorm raw).ash.toNat = normShift raw :=
  (BitVec.toNat_ofNat ..).trans (Nat.mod_eq_of_lt ((normShift_le raw).trans_lt (by decide)))

/-- Settles O11: each row fixes the bit width of `raw`, so the shift, so both words. -/
theorem normalizedCoefficientOverItsDomain : Obligations.NormalizedCoefficientOverItsDomain := by
  refine ⟨by decide, fun raw => ⟨?unshifted, ?shifted⟩⟩
  case unshifted =>
    rintro ⟨hpos, hle⟩
    have hne : raw ≠ 0 := by
      rintro rfl
      exact absurd hpos (by decide)
    have hwidth : bitwidth16 raw ≤ 6 := bitwidth16_le_iff.mpr (by omega)
    have hshift : normShift raw = 0 := by rw [normShift_eq_sub, Nat.sub_eq_zero_of_le hwidth]
    refine ⟨bitwidth16_pos hne, hwidth, ?_, ?_⟩
    · exact BitVec.eq_of_toNat_eq ((coeffNorm_ash_toNat raw).trans hshift)
    · rw [coeffNorm_alpha_toNat, hshift, Nat.pow_zero, Nat.div_one]
  case shifted =>
    intro k _ _ hlow hhigh
    have hwidth : bitwidth16 raw = k + 6 := bitwidth16_eq_succ hlow hhigh
    have hshift : normShift raw = k := by rw [normShift_eq_sub, hwidth, Nat.add_sub_cancel]
    have halpha : (coeffNorm raw).alpha.toNat = raw.toNat / 2 ^ k := by rw [coeffNorm_alpha_toNat, hshift]
    have hwindow : 2 ^ 5 ≤ raw.toNat / 2 ^ k := by
      rwa [Nat.le_div_iff_mul_le (Nat.two_pow_pos k), ← Nat.pow_add, Nat.add_comm]
    exact ⟨hwidth, (coeffNorm_ash_toNat raw).trans hshift, halpha, halpha ▸ hwindow,
      Nat.le_of_lt_succ (coeffNorm raw).alpha.isLt⟩

end Sys2Proof.Machine

/-! # The NLPF datapath (43_normalized.md R84 to R87, R94)

The idea: the pre-shift brings an operand down to 10 bits, and the two weights `alpha` and `64 - alpha` sum to 64.
So each product fits `NNAT` bits, the sum of the two fits as well, and after the largest alignment it still fits
`NACC_W` bits: no narrowing before the write-back loses anything. -/

namespace Sys2Proof.Machine

/-! ### The pre-shift -/

/-- The two branches of `preShiftAmount` are one subtraction of natural numbers. -/
theorem preShiftAmount_eq_sub (v : U16) : preShiftAmount v = bitwidth16 v - 10 := by
  simp only [preShiftAmount, Config.NWIN, Config.NNAT]
  split <;> omega

theorem preShiftAmount_le (v : U16) : preShiftAmount v ≤ 6 :=
  preShiftAmount_eq_sub v ▸ Nat.sub_le_sub_right (bitwidth16_le v) 10

theorem preShifted_eq_div (v : U16) : preShifted v = v.toNat / 2 ^ preShiftAmount v :=
  Nat.shiftRight_eq_div_pow ..

theorem preShifted_le (v : U16) : preShifted v ≤ 1023 := by
  have hwidth : bitwidth16 v ≤ 10 + preShiftAmount v := by
    rw [preShiftAmount_eq_sub]
    exact le_add_tsub
  have hlt : v.toNat / 2 ^ preShiftAmount v < 2 ^ 10 := by
    rw [Nat.div_lt_iff_lt_mul (Nat.two_pow_pos _), ← Nat.pow_add]
    exact bitwidth16_le_iff.mp hwidth
  exact preShifted_eq_div v ▸ Nat.le_of_lt_succ hlt

/-! ### The two products and their sum -/

/-- The product of the input (R85), before it is narrowed. -/
def inputProduct (alpha : BitVec 6) (x : U16) : Nat := alpha.toNat * preShifted x

/-- The product of the state (R85), before it is narrowed. -/
def stateProduct (alpha : BitVec 6) (last : U16) : Nat := (64 - alpha.toNat) * preShifted last

theorem inputProduct_le (alpha : BitVec 6) (x : U16) : inputProduct alpha x ≤ 64449 :=
  Nat.mul_le_mul (Nat.le_of_lt_succ alpha.isLt) (preShifted_le x)

theorem stateProduct_le (alpha : BitVec 6) (last : U16) : stateProduct alpha last ≤ 65472 :=
  Nat.mul_le_mul (Nat.sub_le ..) (preShifted_le last)

/-- The sum is bounded as one product is, not as two are: the weights share 64 between them. -/
theorem inputProduct_add_stateProduct_le (alpha : BitVec 6) (last x : U16) :
    inputProduct alpha x + stateProduct alpha last ≤ 65472 := by
  have hweights : alpha.toNat + (64 - alpha.toNat) = 64 := Nat.add_sub_of_le alpha.isLt.le
  calc inputProduct alpha x + stateProduct alpha last
    _ ≤ alpha.toNat * 1023 + (64 - alpha.toNat) * 1023 :=
      Nat.add_le_add (Nat.mul_le_mul_left _ (preShifted_le x)) (Nat.mul_le_mul_left _ (preShifted_le last))
    _ = 65472 := by rw [← Nat.add_mul, hweights]

/-! ### The shifted sum -/

theorem add_mul_two_pow_ash_le {n : Nat} (alpha : BitVec 6) (ash : BitVec 4) (last x : U16) (h : ash.toNat ≤ n) :
    (inputProduct alpha x + stateProduct alpha last) * 2 ^ ash.toNat ≤ 65472 * 2 ^ n :=
  Nat.mul_le_mul (inputProduct_add_stateProduct_le alpha last x) (Nat.pow_le_pow_right Nat.two_pos h)

/-- R85 and R86 without the three narrowings, which lose nothing for any value of the 4-bit register `ash`. -/
theorem normAcc_eq (alpha : BitVec 6) (ash : BitVec 4) (last x : U16) :
    normAcc alpha ash last x = (inputProduct alpha x + stateProduct alpha last) * 2 ^ ash.toNat := by
  have hinput : trunc 16 (inputProduct alpha x) = inputProduct alpha x :=
    trunc_of_lt ((inputProduct_le alpha x).trans_lt (by decide))
  have hstate : trunc 16 (stateProduct alpha last) = stateProduct alpha last :=
    trunc_of_lt ((stateProduct_le alpha last).trans_lt (by decide))
  have hsum : (inputProduct alpha x + stateProduct alpha last) * 2 ^ ash.toNat < 2 ^ 32 :=
    (add_mul_two_pow_ash_le alpha ash last x (Nat.le_of_lt_succ ash.isLt)).trans_lt (by decide)
  calc normAcc alpha ash last x
    _ = trunc 32 (trunc 16 (inputProduct alpha x) <<< ash.toNat + trunc 16 (stateProduct alpha last) <<< ash.toNat) :=
      rfl
    _ = trunc 32 ((inputProduct alpha x + stateProduct alpha last) * 2 ^ ash.toNat) := by
      rw [hinput, hstate, Nat.shiftLeft_eq, Nat.shiftLeft_eq, Nat.add_mul]
    _ = (inputProduct alpha x + stateProduct alpha last) * 2 ^ ash.toNat := trunc_of_lt hsum

theorem normAcc_le {n : Nat} (alpha : BitVec 6) {ash : BitVec 4} (last x : U16) (h : ash.toNat ≤ n) :
    normAcc alpha ash last x ≤ 65472 * 2 ^ n :=
  normAcc_eq alpha ash last x ▸ add_mul_two_pow_ash_le alpha ash last x h

/-- Settles O37: re-aligning only lowers the sum, and a state of 1023 under `alpha` 0 and `ash` 10 reaches the bound. -/
theorem nlpfDatapathBounds : Obligations.NlpfDatapathBounds := by
  refine ⟨fun v => ⟨preShiftAmount_le v, preShifted_le v⟩, ?bounds, ?needs26Bits⟩
  case bounds =>
    intro alpha ash last x hash
    have hacc : normAcc alpha ash last x ≤ 67043328 := normAcc_le alpha last x hash
    refine ⟨inputProduct_le alpha x, stateProduct_le alpha last, normAcc_eq alpha ash last x, hacc,
      (Nat.div_le_self ..).trans hacc, ?unaligned⟩
    case unaligned =>
      rintro rfl
      exact (Nat.div_le_self ..).trans (normAcc_le (n := 0) alpha last x le_rfl)
  case needs26Bits => exact ⟨0, 10, 1023, 0, by decide, by decide⟩

end Sys2Proof.Machine

/-! # Errors and hardware reset (60_exceptions.md R99, R101)

The idea: a word has one of three outcomes, and `runWord_cases` says which: it raises ILLEGAL_COMMAND, it raises
NOT_CONFIGURED, or it ends with STATUS OK and leaves `ERR_STICKY` alone. Everything R99 and R101 say of a command is read
off these three, and a hardware reset leaves nothing but the reset state. -/

namespace Sys2Proof.Machine

/-! ### The three outcomes of a command word -/

/-- R99: a command that completes does not write `ERR_STICKY`. -/
theorem exec_errSticky_of_ready {i : Instr} {s t : State} (hready : s.Ready i) (hexec : exec i s = .next t) :
    t.errSticky = s.errSticky := by
  have completes : ∃ t', exec i s = .next t' ∧ t'.errSticky = s.errSticky := by
    cases i with
    | lpfInit | lpfSetc | lpfReset | hpfInit | hpfSetc | hpfReset | nlpfInit | nlpfSetc | nlpfReset =>
      exact ⟨_, rfl, rfl⟩
    | lpfProcess | hpfProcess | nlpfProcess => exact ⟨_, if_pos (hready rfl), rfl⟩
  obtain ⟨t', hexec', hkept⟩ := completes
  cases hexec'.symm.trans hexec
  exact hkept

/-- Everything performing a word can do to `ERR_STICKY` and to the responses, and when (R97 to R99). -/
theorem runWord_cases (w : Word32) (s : State) :
    (∃ e, decode w = .error e ∧ runWord w s = s.raise .illegalCommand) ∨
    (∃ i, decode w = .ok i ∧ i.op = .process ∧ s.configured i.unit = false ∧ runWord w s = s.raise .notConfigured) ∨
    (∃ i t v, decode w = .ok i ∧ s.Ready i ∧ runWord w s = .next t ∧
      t.responses = s.responses ++ [rspWord .ok v] ∧ t.errSticky = s.errSticky) := by
  cases hd : decode w with
  | error e => exact .inl ⟨e, rfl, runWord_error hd s⟩
  | ok i =>
    rw [runWord_ok hd]
    by_cases hready : s.Ready i
    case pos =>
      obtain ⟨t, v, hexec, hresp, -⟩ := exec_ok_of_ready hready
      exact .inr (.inr ⟨i, t, v, rfl, hready, hexec, hresp, exec_errSticky_of_ready hready hexec⟩)
    case neg =>
      obtain ⟨hop, hcfg⟩ := State.not_ready_iff.mp hready
      exact .inr (.inl ⟨i, rfl, hop, hcfg, exec_process_of_not_configured hop hcfg⟩)

/-- R99 for one word: which bit a raise sets, and that a command which completes sets none. -/
theorem runWord_errSticky (w : Word32) (s : State) : ∃ t, runWord w s = .next t ∧
    ((∃ e, decode w = .error e) → t.errSticky = s.errSticky ||| 0b01) ∧
    (∀ i, decode w = .ok i →
      (i.op = .process ∧ s.configured i.unit = false → t.errSticky = s.errSticky ||| 0b10) ∧
      (s.Ready i → t.errSticky = s.errSticky)) := by
  obtain ⟨e, hd, hrun⟩ | ⟨i, hd, hop, hcfg, hrun⟩ | ⟨i, t, v, hd, hready, hrun, -, hkept⟩ := runWord_cases w s
  · refine ⟨_, hrun, fun _ => rfl, fun i hi => ?_⟩
    cases hd.symm.trans hi
  · refine ⟨_, hrun, fun ⟨e, he⟩ => ?_, fun j hj => ⟨fun _ => rfl, fun hready => ?_⟩⟩
    · cases hd.symm.trans he
    · cases hd.symm.trans hj
      exact absurd hready (State.not_ready_iff.mpr ⟨hop, hcfg⟩)
  · refine ⟨t, hrun, fun ⟨e, he⟩ => ?_, fun j hj => ⟨fun hraises => ?_, fun _ => hkept⟩⟩
    · cases hd.symm.trans he
    · cases hd.symm.trans hj
      exact absurd hready (State.not_ready_iff.mpr hraises)

/-- R101: one response, and its STATUS says NOT_CONFIGURED only for a legal PROCESS word to an unconfigured unit. -/
theorem runWord_response (w : Word32) (s : State) : ∃ t r, runWord w s = .next t ∧ t.responses = s.responses ++ [r] ∧
    (rspStatus r = 0b10 → ∃ i, decode w = .ok i ∧ i.op = .process ∧ s.configured i.unit = false) := by
  obtain ⟨e, -, hrun⟩ | ⟨i, hd, hop, hcfg, hrun⟩ | ⟨i, t, v, -, -, hrun, hresp, -⟩ := runWord_cases w s
  · refine ⟨_, ErrorCause.illegalCommand.rspWord, hrun, rfl, fun hstatus => ?_⟩
    exact absurd hstatus (by decide)
  · exact ⟨_, ErrorCause.notConfigured.rspWord, hrun, rfl, fun _ => ⟨i, hd, hop, hcfg⟩⟩
  · refine ⟨t, rspWord .ok v, hrun, hresp, fun hstatus => ?_⟩
    rw [rspStatus_rspWord] at hstatus
    exact absurd hstatus (by decide)

/-! ### No step without reset clears a sticky bit -/

theorem and_or_absorb {n : Nat} (a b : BitVec n) : a &&& (a ||| b) = a := by
  ext i hi
  rw [BitVec.getElem_and, BitVec.getElem_or]
  exact inf_sup_self

@[simp] theorem State.transfer_errSticky (p : PortIn) (s : State) : (s.transfer p).errSticky = s.errSticky := by
  obtain h | h | h | h := transfer_cases p s <;> simp [h]

theorem runWord_keeps_sticky {w : Word32} {s t : State} (h : runWord w s = .next t) :
    s.errSticky &&& t.errSticky = s.errSticky := by
  obtain ⟨e, -, hrun⟩ | ⟨i, -, -, -, hrun⟩ | ⟨i, t', v, -, -, hrun, -, hkept⟩ := runWord_cases w s <;>
    cases hrun.symm.trans h
  · exact and_or_absorb s.errSticky _
  · exact and_or_absorb s.errSticky _
  · rw [hkept, BitVec.and_self]

theorem performNext_keeps_sticky {s t : State} (h : performNext s = .next t) :
    s.errSticky &&& t.errSticky = s.errSticky := by
  cases ha : s.accepted with
  | nil =>
    rw [performNext_nil ha] at h
    cases h
    exact BitVec.and_self
  | cons w ws =>
    rw [performNext_cons ha] at h
    exact runWord_keeps_sticky (s := { s with accepted := ws }) h

theorem step_keeps_sticky {s t : State} (h : step s = .next t)
    (hrst : ∀ p rest, s.inputs = p :: rest → p.rst = false) : s.errSticky &&& t.errSticky = s.errSticky := by
  obtain ⟨-, hperf⟩ | ⟨p, ps, hin, hreset, -⟩ | ⟨p, ps, m, -, -, hperf, rfl⟩ := step_next_cases h
  · exact performNext_keeps_sticky hperf
  · exact absurd ((hrst p ps hin).symm.trans hreset) Bool.false_ne_true
  · rw [State.transfer_errSticky]
    exact performNext_keeps_sticky (s := { s with inputs := ps }) hperf

/-- Settles O26: the three outcomes of a word, then the two kinds of step. -/
theorem stickyBitsSetByRaisesOnly : Obligations.StickyBitsSetByRaisesOnly := by
  refine ⟨runWord_errSticky, fun s t hstep => ⟨step_keeps_sticky hstep, fun p rest hin hrst => ?reset⟩⟩
  case reset =>
    cases (step_of_rst hin hrst).symm.trans hstep
    exact State.hwReset_errSticky _

/-! ### Hardware reset -/

theorem LowPassRegs.Agree.refl (u : LowPassRegs) : u.Agree u := ⟨rfl, rfl, fun _ => ⟨rfl, rfl⟩⟩

theorem NormRegs.Agree.refl (u : NormRegs) : u.Agree u := ⟨rfl, rfl, fun _ => ⟨rfl, rfl⟩⟩

theorem State.Agree.refl (s : State) : s.Agree s :=
  ⟨.refl s.lpf, .refl s.hpf, .refl s.nlpf, rfl, rfl, rfl, rfl, rfl, rfl, rfl⟩

/-- Settles O27: the word alone decides ILLEGAL_COMMAND, the cases of a word decide the rest, and a reset cycle leaves the
reset state but for the fields that are not FILTCORE's. -/
theorem errorPriority : Obligations.ErrorPriority :=
  ⟨fun _ _ s hd => runWord_of_decode_error hd s, runWord_response,
    fun _ _ _ hin hrst => ⟨_, step_of_rst hin hrst, State.Agree.refl _⟩⟩

end Sys2Proof.Machine

/-! # A reset cycle and the commands in flight (70_reset_and_hazards.md R110)

The idea: hardware reset overwrites every register a command can write, so what it leaves depends only on the fields of
the state that no command writes: what the host drives and the record of what it has issued and received. A reset cycle
is therefore the same step before and after any number of commands. -/

namespace Sys2Proof.Machine

/-- The same fields on the host's side of the ports: what hardware reset carries over (log 12). -/
structure State.SameHostSide (s t : State) : Prop where
  inputs : t.inputs = s.inputs
  delivered : t.delivered = s.delivered
  issued : t.issued = s.issued
  resets : t.resets = s.resets

theorem State.SameHostSide.refl (s : State) : s.SameHostSide s := ⟨rfl, rfl, rfl, rfl⟩

theorem State.SameHostSide.trans {s m t : State} (h : s.SameHostSide m) (h' : m.SameHostSide t) :
    s.SameHostSide t :=
  ⟨h'.inputs.trans h.inputs, h'.delivered.trans h.delivered, h'.issued.trans h.issued, h'.resets.trans h.resets⟩

/-! ### Commands do not write the host's side -/

theorem State.SameHostSide.of_raise {c : ErrorCause} {s t : State} (h : s.raise c = .next t) : s.SameHostSide t := by
  rw [raise_next_iff] at h
  subst h
  exact ⟨rfl, rfl, rfl, rfl⟩

theorem exec_sameHostSide_of_ready {i : Instr} {s t : State} (hready : s.Ready i) (hexec : exec i s = .next t) :
    s.SameHostSide t := by
  have completes : ∃ t', exec i s = .next t' ∧ s.SameHostSide t' := by
    cases i with
    | lpfInit | lpfSetc | lpfReset | hpfInit | hpfSetc | hpfReset | nlpfInit | nlpfSetc | nlpfReset =>
      exact ⟨_, rfl, rfl, rfl, rfl, rfl⟩
    | lpfProcess | hpfProcess | nlpfProcess => exact ⟨_, if_pos (hready rfl), rfl, rfl, rfl, rfl⟩
  obtain ⟨t', hexec', hsame⟩ := completes
  cases hexec'.symm.trans hexec
  exact hsame

theorem runWord_sameHostSide {w : Word32} {s t : State} (h : runWord w s = .next t) : s.SameHostSide t := by
  obtain ⟨e, -, hrun⟩ | ⟨i, -, -, -, hrun⟩ | ⟨i, -, -, hd, hready, -⟩ := runWord_cases w s
  · exact .of_raise (hrun.symm.trans h)
  · exact .of_raise (hrun.symm.trans h)
  · exact exec_sameHostSide_of_ready hready ((runWord_ok hd s).symm.trans h)

theorem Performs.sameHostSide {ws : List Word32} {s t : State} (h : Performs ws s t) : s.SameHostSide t := by
  induction ws generalizing s with
  | nil =>
    cases h
    exact .refl t
  | cons w ws ih =>
    obtain ⟨m, hrun, hrest⟩ := h
    exact (runWord_sameHostSide hrun).trans (ih hrest)

/-! ### A reset cycle reads nothing else -/

theorem State.SameHostSide.hwReset_eq {s t : State} (h : s.SameHostSide t) : t.hwReset = s.hwReset := by
  rw [State.hwReset, h.inputs, h.delivered, h.issued, h.resets, State.hwReset]

theorem State.SameHostSide.step_eq_of_rst {s t : State} (h : s.SameHostSide t) {p : PortIn} {rest : List PortIn}
    (hin : s.inputs = p :: rest) (hrst : p.rst = true) : step t = step s := by
  have hafter : State.SameHostSide { s with inputs := rest } { t with inputs := rest } :=
    ⟨rfl, h.delivered, h.issued, h.resets⟩
  rw [step_of_rst (h.inputs.trans hin) hrst, step_of_rst hin hrst, hafter.hwReset_eq]

/-- Settles O52: the commands already performed have not written the host's side, and the reset cycle reads nothing
else. The state left is the very same one, so the two agree (R31). -/
theorem hardwareResetDiscardsInFlight : Obligations.HardwareResetDiscardsInFlight := by
  intro s p rest hin hrst
  have hstep := step_of_rst hin hrst
  refine ⟨_, hstep, rfl, rfl, rfl, rfl, rfl, rfl, rfl, rfl, rfl, rfl, fun ws later m _ hperf => ?_⟩
  have hsame : s.SameHostSide { m with accepted := later } := hperf.sameHostSide.trans ⟨rfl, rfl, rfl, rfl⟩
  exact ⟨_, (hsame.step_eq_of_rst hin hrst).trans hstep, .refl _⟩

end Sys2Proof.Machine

/-! # SETC and RESET before a PROCESS (70_reset_and_hazards.md R117)

The idea: the new output of a unit is a function of its registers, SETC replaces the coefficient in them and RESET the
state, and a PROCESS to a configured unit writes that output. -/

namespace Sys2Proof.Machine

/-! ### The output of a unit after SETC and after RESET -/

/-- R63 with `alpha` substituted: the complement of `raw + 1` to 127, wrapping as 16-bit words do. -/
theorem coeffBasic_oma_eq_sub_raw (raw : U16) : (coeffBasic raw).oma = 126 - raw := by
  rw [coeffBasic_oma, coeffBasic_alpha]
  bv_omega

theorem LowPassRegs.output_setCoeff (raw x : U16) (u : LowPassRegs) :
    (u.setCoeff raw).output x = lpfStep (raw + 1) (126 - raw) u.last x := by
  simp only [LowPassRegs.output, LowPassRegs.setCoeff_alpha, LowPassRegs.setCoeff_oma, LowPassRegs.setCoeff_last,
    coeffBasic_alpha, coeffBasic_oma_eq_sub_raw]

theorem LowPassRegs.output_setLast (v x : U16) (u : LowPassRegs) :
    (u.setLast v).output x = lpfStep u.alpha u.oma v x := rfl

theorem NormRegs.output_setCoeff (raw x : U16) (u : NormRegs) :
    (u.setCoeff raw).output x = normStep .saturate (coeffNorm raw).alpha (coeffNorm raw).ash u.last x := rfl

theorem NormRegs.output_setLast (v x : U16) (u : NormRegs) :
    (u.setLast v).output x = normStep .saturate u.alpha u.ash v x := rfl

/-! ### PROCESS to a configured unit -/

theorem exec_lpfProcess_of_cfg {s : State} (h : s.lpf.cfg = true) (x : U16) : exec (.lpfProcess x) s =
    .next ((s.setLpf (s.lpf.setLast (s.lpf.output x))).pushResponse (rspWord .ok (s.lpf.output x))) := if_pos h

theorem exec_hpfProcess_of_cfg {s : State} (h : s.hpf.cfg = true) (x : U16) : exec (.hpfProcess x) s =
    .next ((s.setHpf (s.hpf.setLast (s.hpf.output x))).pushResponse
      (rspWord .ok (highPass .clamp x (s.hpf.output x)))) := if_pos h

theorem exec_nlpfProcess_of_cfg {s : State} (h : s.nlpf.cfg = true) (x : U16) : exec (.nlpfProcess x) s =
    .next ((s.setNlpf (s.nlpf.setLast (s.nlpf.output x))).pushResponse (rspWord .ok (s.nlpf.output x))) := if_pos h

/-- Settles O48: SETC configures its unit and RESET leaves it configured, so the PROCESS after either writes the output
of the registers left; the output lemmas say which coefficient and which state that output has. -/
theorem setcAndResetTakeEffectNext : Obligations.SetcAndResetTakeEffectNext := by
  refine fun raw x s => ⟨?lpfSetc, ?hpfSetc, ?nlpfSetc, fun hcfg => ?lpfReset, fun hcfg => ?hpfReset,
    fun hcfg => ?nlpfReset⟩
  case lpfSetc => exact ⟨_, _, rfl, rfl, exec_lpfProcess_of_cfg rfl x, s.lpf.output_setCoeff raw x⟩
  case hpfSetc => exact ⟨_, _, rfl, rfl, exec_hpfProcess_of_cfg rfl x, s.hpf.output_setCoeff raw x⟩
  case nlpfSetc => exact ⟨_, _, rfl, rfl, exec_nlpfProcess_of_cfg rfl x, s.nlpf.output_setCoeff raw x⟩
  case lpfReset => exact ⟨_, _, rfl, exec_lpfProcess_of_cfg (by simpa using hcfg) x, s.lpf.output_setLast 0 x⟩
  case hpfReset => exact ⟨_, _, rfl, exec_hpfProcess_of_cfg (by simpa using hcfg) x, s.hpf.output_setLast 0 x⟩
  case nlpfReset => exact ⟨_, _, rfl, exec_nlpfProcess_of_cfg (by simpa using hcfg) x, s.nlpf.output_setLast 0 x⟩

end Sys2Proof.Machine

/-! # Encoding and the illegal words (30_encoding.md R55 to R57)

The idea: `decode` and `encode` are inverse to each other, as the opcode map's proof already needed. The three classes
of R57 are first told apart on the fields, in the order of R56's checks, and the fields are digits of the number a word
is. -/

namespace Sys2Proof

/-! ### The classes of R57 on the fields -/

theorem UnitId.ofCode_eq_none_iff (c : BitVec 2) : UnitId.ofCode c = none ↔ c = 0b11 := by
  revert c
  decide

theorem Op.ofCode_eq_reset_iff (c : BitVec 2) : Op.ofCode c = .reset ↔ c = 0b11 := by
  revert c
  decide

/-- Everything `decodeFields` can answer, by R56's checks in their order. -/
theorem decodeFields_cases (f : CommandFields) :
    (f.rsv ≠ 0 ∧ decodeFields f = .error .reservedBits) ∨
    (f.rsv = 0 ∧ f.unit = 0b11 ∧ decodeFields f = .error .reservedUnit) ∨
    (f.rsv = 0 ∧ f.unit ≠ 0b11 ∧ f.op = 0b11 ∧ f.data ≠ 0 ∧ decodeFields f = .error .resetWithData) ∨
    (f.rsv = 0 ∧ f.unit ≠ 0b11 ∧ (f.op = 0b11 → f.data = 0) ∧ ∃ i, decodeFields f = .ok i) := by
  by_cases hrsv : f.rsv = 0
  case neg => exact .inl ⟨hrsv, if_pos hrsv⟩
  case pos =>
    cases hunit : UnitId.ofCode f.unit with
    | none =>
      exact .inr (.inl ⟨hrsv, (UnitId.ofCode_eq_none_iff _).mp hunit, by simp [decodeFields, hrsv, hunit]⟩)
    | some u =>
      have hne : f.unit ≠ 0b11 := (UnitId.ofCode_eq_none_iff _).not.mp (by simp [hunit])
      by_cases hop : f.op = 0b11 ∧ f.data ≠ 0
      · obtain ⟨hreset, hdata⟩ := hop
        exact .inr (.inr (.inl ⟨hrsv, hne, hreset, hdata,
          by simpa [decodeFields, hrsv, hunit, Op.ofCode_eq_reset_iff, hreset] using hdata⟩))
      · exact .inr (.inr (.inr ⟨hrsv, hne, not_and_not_right.mp hop, _,
          by simp only [decodeFields, hrsv, hunit, Op.ofCode_eq_reset_iff, hop]; rfl⟩))

/-! ### The fields of a word as digits of a number -/

theorem ofWord_rsv_eq_zero_iff (w : Word32) : (CommandFields.ofWord w).rsv = 0 ↔ w.toNat < 2 ^ 20 := by
  have hw := w.isLt
  rw [← BitVec.toNat_inj, CommandFields.ofWord, BitVec.extractLsb'_toNat, Nat.shiftRight_eq_div_pow]
  change w.toNat / 2 ^ 20 % 2 ^ 12 = 0 ↔ w.toNat < 2 ^ 20
  omega

theorem ofWord_unit_eq_iff (w : Word32) :
    (CommandFields.ofWord w).unit = 0b11 ↔ w.toNat / 2 ^ 18 % 4 = 3 := by
  rw [← BitVec.toNat_inj, CommandFields.ofWord, BitVec.extractLsb'_toNat, Nat.shiftRight_eq_div_pow]
  rfl

theorem ofWord_op_eq_iff (w : Word32) :
    (CommandFields.ofWord w).op = 0b11 ↔ w.toNat / 2 ^ 16 % 4 = 3 := by
  rw [← BitVec.toNat_inj, CommandFields.ofWord, BitVec.extractLsb'_toNat, Nat.shiftRight_eq_div_pow]
  rfl

theorem ofWord_data_eq_zero_iff (w : Word32) : (CommandFields.ofWord w).data = 0 ↔ w.toNat % 2 ^ 16 = 0 := by
  rw [← BitVec.toNat_inj, CommandFields.ofWord, BitVec.extractLsb'_toNat, Nat.shiftRight_zero]
  rfl

/-! ### The obligations -/

/-- Settles O1: packing loses no field, and the fields of a command pass the checks. -/
theorem encodedCommandDecodesToItself : Obligations.EncodedCommandDecodesToItself := decode_encode

/-- Settles O2: an accepted word's fields are those of the command it decodes to. -/
theorem decodedWordIsTheEncoding : Obligations.DecodedWordIsTheEncoding := fun _ _ h => encode_eq_of_decode h

/-- Settles O4: the four answers of `decodeFields` are told apart by conditions on the fields, which are digits of the
word's number. -/
theorem illegalWordClasses : Obligations.IllegalWordClasses := by
  intro w
  have hcases := decodeFields_cases (CommandFields.ofWord w)
  simp only [ne_eq, ofWord_rsv_eq_zero_iff, ofWord_unit_eq_iff, ofWord_op_eq_iff, ofWord_data_eq_zero_iff] at hcases
  obtain ⟨hrsv, hd⟩ | ⟨hrsv, hunit, hd⟩ | ⟨hrsv, hunit, hop, hdata, hd⟩ | ⟨hrsv, hunit, hlegal, i, hd⟩ := hcases <;>
    simp only [decode, hd, Except.error.injEq, reduceCtorEq, true_iff, false_iff] <;>
    omega

/-- Settles O5: fifteen closed words, each evaluated by the decoder. -/
theorem sampleWordsDecode : Obligations.SampleWordsDecode := by
  unfold Obligations.SampleWordsDecode
  decide

end Sys2Proof

/-! # What a command writes (30_encoding.md R55)

The idea: the twelve rows of the opcode map are four operations on three units. What an operation writes into a unit,
and the RESULT it answers, are functions of that unit's registers; a command that is ready for its unit writes them, and
any other raises. Every later fact about all commands is a case split over the unit and over the operation. -/

namespace Sys2Proof.Machine

/-- What a ready operation leaves in unit LPF or HPF (R72 to R75, R77 to R80). -/
def LowPassRegs.apply (o : Op) (d : U16) (u : LowPassRegs) : LowPassRegs :=
  match o with
  | .init => (u.setCoeff d).setLast 0
  | .process => u.setLast (u.output d)
  | .setc => u.setCoeff d
  | .reset => u.setLast 0

/-- What a ready operation leaves in unit NLPF (R90 to R93). -/
def NormRegs.apply (o : Op) (d : U16) (u : NormRegs) : NormRegs :=
  match o with
  | .init => (u.setCoeff d).setLast 0
  | .process => u.setLast (u.output d)
  | .setc => u.setCoeff d
  | .reset => u.setLast 0

/-- The operation `o` of unit `u`, as a write of that unit's registers. -/
def State.write (u : UnitId) (o : Op) (d : U16) (s : State) : State :=
  match u with
  | .lpf => s.setLpf (s.lpf.apply o d)
  | .hpf => s.setHpf (s.hpf.apply o d)
  | .nlpf => s.setNlpf (s.nlpf.apply o d)

/-- The filter output of unit `u` for the sample `x`. -/
def State.outputOf (u : UnitId) (x : U16) (s : State) : U16 :=
  match u with
  | .lpf => s.lpf.output x
  | .hpf => highPass .clamp x (s.hpf.output x)
  | .nlpf => s.nlpf.output x

/-- R54: the RESULT of a command that completes. -/
def State.result (u : UnitId) (o : Op) (d : U16) (s : State) : U16 :=
  match o with
  | .process => s.outputOf u d
  | .init | .setc | .reset => 0

/-! ### Every command is one of two shapes -/

theorem exec_of_ready {i : Instr} {s : State} (h : s.Ready i) : exec i s =
    .next ((s.write i.unit i.op i.data).pushResponse (rspWord .ok (s.result i.unit i.op i.data))) := by
  cases i with
  | lpfProcess | hpfProcess | nlpfProcess => exact if_pos (h rfl)
  | lpfInit | lpfSetc | lpfReset | hpfInit | hpfSetc | hpfReset | nlpfInit | nlpfSetc | nlpfReset => rfl

theorem exec_of_not_ready {i : Instr} {s : State} (h : ¬ s.Ready i) : exec i s = s.raise .notConfigured :=
  have ⟨hop, hcfg⟩ := State.not_ready_iff.mp h
  exec_process_of_not_configured hop hcfg

/-! ### What a write and a cycle's handshakes leave unchanged -/

@[simp] theorem State.write_accepted (u : UnitId) (o : Op) (d : U16) (s : State) :
    (s.write u o d).accepted = s.accepted := by cases u <;> rfl

@[simp] theorem State.transfer_lpf (p : PortIn) (s : State) : (s.transfer p).lpf = s.lpf := by
  obtain h | h | h | h := transfer_cases p s <;> simp [h]

@[simp] theorem State.transfer_hpf (p : PortIn) (s : State) : (s.transfer p).hpf = s.hpf := by
  obtain h | h | h | h := transfer_cases p s <;> simp [h]

@[simp] theorem State.transfer_nlpf (p : PortIn) (s : State) : (s.transfer p).nlpf = s.nlpf := by
  obtain h | h | h | h := transfer_cases p s <;> simp [h]

@[simp] theorem State.transfer_inputs (p : PortIn) (s : State) : (s.transfer p).inputs = s.inputs := by
  obtain h | h | h | h := transfer_cases p s <;> simp [h]

@[simp] theorem State.transfer_resets (p : PortIn) (s : State) : (s.transfer p).resets = s.resets := by
  obtain h | h | h | h := transfer_cases p s <;> simp [h]

/-- A property that every part of a step keeps is kept by the step. -/
theorem step_keeps {P : State → Prop} (inputs : ∀ s ps, P s → P { s with inputs := ps })
    (perform : ∀ s t, P s → performNext s = .next t → P t) (transfer : ∀ p s, P s → P (s.transfer p))
    (reset : ∀ s : State, P s → P s.hwReset) {s t : State} (hs : P s) (hstep : step s = .next t) : P t := by
  obtain ⟨-, hperf⟩ | ⟨p, ps, -, -, rfl⟩ | ⟨p, ps, m, -, -, hperf, rfl⟩ := step_next_cases hstep
  · exact perform _ _ hs hperf
  · exact reset _ (inputs s ps hs)
  · exact transfer p m (perform _ _ (inputs s ps hs) hperf)

end Sys2Proof.Machine

/-! # Every step keeps the register invariants (10_state.md R22, R25, R32)

The idea: an operation that writes a coefficient establishes the invariant of its unit, one that writes only the state
keeps it, and the state of an unconfigured unit is only ever written with 0. -/

namespace Sys2Proof.Machine

theorem LowPassRegs.Coherent.apply {u : LowPassRegs} (h : u.Coherent) {o : Op} (hready : o = .process → u.cfg = true)
    (d : U16) : (u.apply o d).Coherent := by
  obtain ⟨homa, hlast⟩ := h
  cases o with
  | init | setc => exact ⟨fun _ => coeffBasic_oma d, nofun⟩
  | process => exact ⟨homa, fun hcfg => absurd ((hready rfl).symm.trans hcfg) Bool.noConfusion⟩
  | reset => exact ⟨homa, fun _ => rfl⟩

/-- R25 for `CoeffNorm`: a coefficient that was shifted down still fills the window. -/
theorem le_coeffNorm_alpha_of_ash_pos {raw : U16} (h : 0 < (coeffNorm raw).ash.toNat) :
    32 ≤ (coeffNorm raw).alpha.toNat := by
  rw [coeffNorm_ash_toNat] at h
  have hsize : normShift raw = raw.toNat.size - 6 := by rw [normShift_eq_sub, bitwidth16_eq_size]
  have hlow : 2 ^ (5 + normShift raw) ≤ raw.toNat := Nat.lt_size.mp (by omega)
  rwa [coeffNorm_alpha_toNat, Nat.le_div_iff_mul_le (Nat.two_pow_pos _), show 32 = 2 ^ 5 from rfl, ← Nat.pow_add]

theorem coeffNorm_ash_le (raw : U16) : (coeffNorm raw).ash.toNat ≤ 10 := coeffNorm_ash_toNat raw ▸ normShift_le raw

theorem NormRegs.Coherent.apply {u : NormRegs} (h : u.Coherent) {o : Op} (hready : o = .process → u.cfg = true)
    (d : U16) : (u.apply o d).Coherent := by
  obtain ⟨hcoeff, hlast⟩ := h
  cases o with
  | init | setc => exact ⟨fun _ => ⟨coeffNorm_ash_le d, le_coeffNorm_alpha_of_ash_pos⟩, nofun⟩
  | process => exact ⟨hcoeff, fun hcfg => absurd ((hready rfl).symm.trans hcfg) Bool.noConfusion⟩
  | reset => exact ⟨hcoeff, fun _ => rfl⟩

theorem State.Coherent.write {s : State} (h : s.Coherent) {u : UnitId} {o : Op}
    (hready : o = .process → s.configured u = true) (d : U16) : (s.write u o d).Coherent := by
  obtain ⟨hlpf, hhpf, hnlpf⟩ := h
  cases u with
  | lpf => exact ⟨hlpf.apply hready d, hhpf, hnlpf⟩
  | hpf => exact ⟨hlpf, hhpf.apply hready d, hnlpf⟩
  | nlpf => exact ⟨hlpf, hhpf, hnlpf.apply hready d⟩

theorem State.Coherent.runWord {w : Word32} {s t : State} (h : s.Coherent) (hrun : runWord w s = .next t) :
    t.Coherent := by
  obtain ⟨e, -, hraise⟩ | ⟨i, -, -, -, hraise⟩ | ⟨i, -, -, hd, hready, -⟩ := runWord_cases w s
  · cases hraise.symm.trans hrun
    exact h
  · cases hraise.symm.trans hrun
    exact h
  · cases ((runWord_ok hd s).trans (exec_of_ready hready)).symm.trans hrun
    exact h.write hready i.data

theorem State.Coherent.performNext {s t : State} (h : s.Coherent) (hperf : performNext s = .next t) : t.Coherent := by
  cases ha : s.accepted with
  | nil =>
    cases (performNext_nil ha).symm.trans hperf
    exact h
  | cons w ws => exact State.Coherent.runWord (s := { s with accepted := ws }) h (performNext_cons ha ▸ hperf)

theorem LowPassRegs.afterReset_coherent : LowPassRegs.afterReset.Coherent := ⟨nofun, fun _ => rfl⟩

theorem NormRegs.afterReset_coherent : NormRegs.afterReset.Coherent := ⟨nofun, fun _ => rfl⟩

theorem State.hwReset_coherent (s : State) : s.hwReset.Coherent :=
  ⟨LowPassRegs.afterReset_coherent, LowPassRegs.afterReset_coherent, NormRegs.afterReset_coherent⟩

/-- Settles O41: commands keep the invariant of the unit they write, the handshakes write no unit, and hardware reset
leaves all three unconfigured with state 0. -/
theorem stepKeepsRegistersCoherent : Obligations.StepKeepsRegistersCoherent := by
  intro s t hs hstep
  refine step_keeps (P := State.Coherent) (fun _ _ h => h) (fun _ _ h hperf => h.performNext hperf) (fun p s h => ?_)
    (fun s _ => s.hwReset_coherent) hs hstep
  simpa only [State.Coherent, State.transfer_lpf, State.transfer_hpf, State.transfer_nlpf] using h

end Sys2Proof.Machine

/-! # Coefficients of an unconfigured unit are not read (10_state.md R31)

The idea: two runs side by side. The only operation that reads a coefficient is PROCESS, and it first reads `cfg`, on
which agreeing states agree; INIT and SETC overwrite what may differ, and everything else leaves it where it is. -/

namespace Sys2Proof.Machine

/-! ### Agreement of units -/

theorem LowPassRegs.Agree.cfg_eq {u v : LowPassRegs} : u.Agree v → u.cfg = v.cfg := fun ⟨hcfg, _⟩ => hcfg

theorem NormRegs.Agree.cfg_eq {u v : NormRegs} : u.Agree v → u.cfg = v.cfg := fun ⟨hcfg, _⟩ => hcfg

theorem LowPassRegs.Agree.output_eq {u v : LowPassRegs} (h : u.Agree v) (hcfg : u.cfg = true) (x : U16) :
    u.output x = v.output x := by
  obtain ⟨-, hlast, hcoeff⟩ := h
  obtain ⟨halpha, homa⟩ := hcoeff hcfg
  rw [LowPassRegs.output, halpha, homa, hlast, LowPassRegs.output]

theorem NormRegs.Agree.output_eq {u v : NormRegs} (h : u.Agree v) (hcfg : u.cfg = true) (x : U16) :
    u.output x = v.output x := by
  obtain ⟨-, hlast, hcoeff⟩ := h
  obtain ⟨halpha, hash⟩ := hcoeff hcfg
  rw [NormRegs.output, halpha, hash, hlast, NormRegs.output]

theorem LowPassRegs.Agree.apply {u v : LowPassRegs} (h : u.Agree v) {o : Op} (hready : o = .process → u.cfg = true)
    (d : U16) : (u.apply o d).Agree (v.apply o d) := by
  obtain ⟨hcfg, hlast, hcoeff⟩ := id h
  cases o with
  | init => exact ⟨rfl, rfl, fun _ => ⟨rfl, rfl⟩⟩
  | process => exact ⟨hcfg, h.output_eq (hready rfl) d, hcoeff⟩
  | setc => exact ⟨rfl, hlast, fun _ => ⟨rfl, rfl⟩⟩
  | reset => exact ⟨hcfg, rfl, hcoeff⟩

theorem NormRegs.Agree.apply {u v : NormRegs} (h : u.Agree v) {o : Op} (hready : o = .process → u.cfg = true)
    (d : U16) : (u.apply o d).Agree (v.apply o d) := by
  obtain ⟨hcfg, hlast, hcoeff⟩ := id h
  cases o with
  | init => exact ⟨rfl, rfl, fun _ => ⟨rfl, rfl⟩⟩
  | process => exact ⟨hcfg, h.output_eq (hready rfl) d, hcoeff⟩
  | setc => exact ⟨rfl, hlast, fun _ => ⟨rfl, rfl⟩⟩
  | reset => exact ⟨hcfg, rfl, hcoeff⟩

/-! ### Agreement of states, operation by operation -/

theorem State.Agree.configured_eq {s t : State} (h : s.Agree t) (u : UnitId) : s.configured u = t.configured u := by
  obtain ⟨hlpf, hhpf, hnlpf, -⟩ := h
  cases u with
  | lpf => exact hlpf.cfg_eq
  | hpf => exact hhpf.cfg_eq
  | nlpf => exact hnlpf.cfg_eq

theorem State.Agree.ready_iff {s t : State} (h : s.Agree t) (i : Instr) : s.Ready i ↔ t.Ready i := by
  rw [State.Ready, h.configured_eq, State.Ready]

theorem State.Agree.outputOf_eq {s t : State} (h : s.Agree t) {u : UnitId} (hcfg : s.configured u = true) (x : U16) :
    s.outputOf u x = t.outputOf u x := by
  obtain ⟨hlpf, hhpf, hnlpf, -⟩ := h
  cases u with
  | lpf => exact hlpf.output_eq hcfg x
  | hpf => exact congrArg (highPass .clamp x) (hhpf.output_eq hcfg x)
  | nlpf => exact hnlpf.output_eq hcfg x

theorem State.Agree.result_eq {s t : State} (h : s.Agree t) {u : UnitId} {o : Op}
    (hready : o = .process → s.configured u = true) (d : U16) : s.result u o d = t.result u o d := by
  cases o with
  | process => exact h.outputOf_eq (hready rfl) d
  | init | setc | reset => rfl

theorem State.Agree.write {s t : State} (h : s.Agree t) {u : UnitId} {o : Op}
    (hready : o = .process → s.configured u = true) (d : U16) : (s.write u o d).Agree (t.write u o d) := by
  obtain ⟨hlpf, hhpf, hnlpf, hrest⟩ := h
  cases u with
  | lpf => exact ⟨hlpf.apply hready d, hhpf, hnlpf, hrest⟩
  | hpf => exact ⟨hlpf, hhpf.apply hready d, hnlpf, hrest⟩
  | nlpf => exact ⟨hlpf, hhpf, hnlpf.apply hready d, hrest⟩

theorem State.Agree.pushResponse {s t : State} (h : s.Agree t) (r : Word32) :
    (s.pushResponse r).Agree (t.pushResponse r) := by
  obtain ⟨hl, hh, hn, he, ha, hr, hrest⟩ := h
  exact ⟨hl, hh, hn, he, ha, congrArg (· ++ [r]) hr, hrest⟩

theorem State.Agree.stick {s t : State} (h : s.Agree t) (b : BitVec 2) : (s.stick b).Agree (t.stick b) := by
  obtain ⟨hl, hh, hn, he, hrest⟩ := h
  exact ⟨hl, hh, hn, congrArg (· ||| b) he, hrest⟩

theorem State.Agree.withAccepted {s t : State} (h : s.Agree t) (ws : List Word32) :
    State.Agree { s with accepted := ws } { t with accepted := ws } := by
  obtain ⟨hl, hh, hn, he, -, hrest⟩ := h
  exact ⟨hl, hh, hn, he, rfl, hrest⟩

theorem State.Agree.withInputs {s t : State} (h : s.Agree t) (ps : List PortIn) :
    State.Agree { s with inputs := ps } { t with inputs := ps } := by
  obtain ⟨hl, hh, hn, he, ha, hr, -, hrest⟩ := h
  exact ⟨hl, hh, hn, he, ha, hr, rfl, hrest⟩

theorem State.Agree.accept {s t : State} (h : s.Agree t) (w : Word32) : (s.accept w).Agree (t.accept w) := by
  obtain ⟨hl, hh, hn, he, ha, hr, hi, hd, hiss, hres⟩ := h
  exact ⟨hl, hh, hn, he, congrArg (· ++ [w]) ha, hr, hi, hd, by simp [hiss, hres], hres⟩

theorem State.Agree.deliver {s t : State} (h : s.Agree t) : s.deliver.Agree t.deliver := by
  obtain ⟨hl, hh, hn, he, ha, hr, hi, hd, hiss, hres⟩ := id h
  cases hs : s.responses with
  | nil => rwa [deliver_nil hs, deliver_nil (hr ▸ hs)]
  | cons r rs =>
    rw [deliver_cons hs, deliver_cons (hr ▸ hs)]
    exact ⟨hl, hh, hn, he, ha, rfl, hi, congrArg (· ++ [r]) hd, congrArg (answerOldest r) hiss, hres⟩

theorem State.Agree.portOut_eq {s t : State} (h : s.Agree t) (p : PortIn) : s.portOut p = t.portOut p := by
  obtain ⟨-, -, -, he, ha, hr, -⟩ := h
  rw [State.portOut, State.held, he, ha, hr, State.portOut, State.held]

theorem State.Agree.transfer {s t : State} (h : s.Agree t) (p : PortIn) : (s.transfer p).Agree (t.transfer p) := by
  simp only [State.transfer, h.portOut_eq p]
  split <;> split
  · exact h.deliver.accept p.cmdWord
  · exact h.accept p.cmdWord
  · exact h.deliver
  · exact h

theorem State.Agree.hwReset {s t : State} (h : s.Agree t) : s.hwReset.Agree t.hwReset := by
  obtain ⟨-, -, -, -, -, -, hi, hd, hiss, hres⟩ := h
  rw [State.SameHostSide.hwReset_eq (s := t) ⟨hi, hd, hiss, hres⟩]
  exact .refl _

/-! ### Agreement along a step -/

theorem State.Agree.raise {s t s' : State} (h : s.Agree t) {c : ErrorCause} (hs : s.raise c = .next s') :
    ∃ t', t.raise c = .next t' ∧ s'.Agree t' := by
  cases hs
  exact ⟨_, rfl, (h.stick _).pushResponse _⟩

theorem State.Agree.exec {s t s' : State} (h : s.Agree t) {i : Instr} (hs : exec i s = .next s') :
    ∃ t', exec i t = .next t' ∧ s'.Agree t' := by
  by_cases hready : s.Ready i
  case pos =>
    cases (exec_of_ready hready).symm.trans hs
    rw [exec_of_ready ((h.ready_iff i).mp hready), h.result_eq hready]
    exact ⟨_, rfl, (h.write hready _).pushResponse _⟩
  case neg =>
    rw [exec_of_not_ready hready] at hs
    rw [exec_of_not_ready ((h.ready_iff i).not.mp hready)]
    exact h.raise hs

theorem State.Agree.runWord {s t s' : State} (h : s.Agree t) {w : Word32} (hs : runWord w s = .next s') :
    ∃ t', runWord w t = .next t' ∧ s'.Agree t' := by
  cases hd : decode w with
  | ok i => exact runWord_ok hd t ▸ h.exec (runWord_ok hd s ▸ hs)
  | error e => exact runWord_error hd t ▸ h.raise (runWord_error hd s ▸ hs)

theorem State.Agree.performNext {s t s' : State} (h : s.Agree t) (hs : performNext s = .next s') :
    ∃ t', performNext t = .next t' ∧ s'.Agree t' := by
  obtain ⟨-, -, -, -, hacc, -⟩ := id h
  cases ha : s.accepted with
  | nil =>
    cases (performNext_nil ha).symm.trans hs
    exact ⟨t, performNext_nil (hacc ▸ ha), h⟩
  | cons w ws =>
    rw [performNext_cons (hacc ▸ ha)]
    exact (h.withAccepted ws).runWord (performNext_cons ha ▸ hs)

/-- Settles O45: both states drive the same ports and hold the same commands, so they take the same kind of step, and
each part of it keeps agreement. -/
theorem unconfiguredCoefficientsUnread : Obligations.UnconfiguredCoefficientsUnread := by
  intro s t s' h hstep
  obtain ⟨-, -, -, -, -, -, hin, -⟩ := id h
  obtain ⟨hnil, hperf⟩ | ⟨p, ps, hcons, hrst, rfl⟩ | ⟨p, ps, m, hcons, hrst, hperf, rfl⟩ := step_next_cases hstep
  · rw [step_nil (hin ▸ hnil)]
    exact h.performNext hperf
  · exact ⟨_, step_of_rst (hin ▸ hcons) hrst, (h.withInputs ps).hwReset⟩
  · obtain ⟨m', hperf', hm⟩ := (h.withInputs ps).performNext hperf
    rw [step_cons (hin ▸ hcons)]
    exact ⟨_, (portCycle_next_iff hrst _ _).mpr ⟨m', hperf', rfl⟩, hm.transfer p⟩

end Sys2Proof.Machine

/-! # A step without reset is a step of the sequential machine (20_memory.md R40)

The idea: two states with the same registers and the same whole sequence of responses (delivered ones first) stay so
under any command word, whatever else they hold, because a word is confined to one unit and appends one response. What a
port cycle adds to the command it performs, moving a response to the host and a word into the list, changes neither. -/

namespace Sys2Proof.Machine

/-! ### Every word is performed, and confined to one unit -/

theorem runWord_confinedTo (w : Word32) : ∃ u, ConfinedTo u (runWord w) := by
  cases hd : decode w with
  | ok i => exact ⟨i.unit, funext (runWord_ok hd) ▸ exec_confinedTo i⟩
  | error e => exact ⟨.lpf, funext (runWord_error hd) ▸ confinedTo_raise .lpf .illegalCommand⟩

/-- On states with equal units, whatever else they hold, a word writes the same and gives the same response. -/
theorem runWord_sameUnits {s t : State} (h : ∀ u, State.SameUnit u s t) (w : Word32) : ∃ s' t' b r,
    runWord w s = .next s' ∧ runWord w t = .next t' ∧ (∀ u, State.SameUnit u s' t') ∧
    s'.errSticky = s.errSticky ||| b ∧ t'.errSticky = t.errSticky ||| b ∧
    s'.responses = s.responses ++ [r] ∧ t'.responses = t.responses ++ [r] := by
  obtain ⟨u, hconf⟩ := runWord_confinedTo w
  obtain ⟨s', t', b, r, hs', ht', hsame, at_s, at_t⟩ := hconf s t (h u)
  refine ⟨s', t', b, r, hs', ht', fun v => ?_, at_s.sticky, at_t.sticky, at_s.responses, at_t.responses⟩
  by_cases hv : v = u
  · exact hv ▸ hsame
  · exact ((at_s.frame v hv).symm.trans (h v)).trans (at_t.frame v hv)

theorem runWord_total (w : Word32) (s : State) : ∃ t, runWord w s = .next t := by
  obtain ⟨t, -, hrun, -⟩ := runWord_response w s
  exact ⟨t, hrun⟩

theorem performs_total (ws : List Word32) (s : State) : ∃ t, Performs ws s t := by
  induction ws generalizing s with
  | nil => exact ⟨s, rfl⟩
  | cons w ws ih =>
    obtain ⟨m, hrun⟩ := runWord_total w s
    obtain ⟨t, hrest⟩ := ih m
    exact ⟨t, m, hrun, hrest⟩

theorem performs_append {ws vs : List Word32} {s t : State} :
    Performs (ws ++ vs) s t ↔ ∃ m, Performs ws s m ∧ Performs vs m t := by
  induction ws generalizing s with
  | nil => simp [Performs]
  | cons w ws ih =>
    simp only [List.cons_append, Performs, ih]
    exact ⟨fun ⟨n, hrun, m, hws, hvs⟩ => ⟨m, ⟨n, hrun, hws⟩, hvs⟩,
      fun ⟨m, ⟨n, hrun, hws⟩, hvs⟩ => ⟨n, hrun, m, hws, hvs⟩⟩

/-! ### Equal registers and responses stay equal -/

theorem State.SameRegs.refl (s : State) : s.SameRegs s := ⟨rfl, rfl, rfl, rfl⟩

theorem State.SameRegs.trans {s m t : State} (h : s.SameRegs m) (h' : m.SameRegs t) : s.SameRegs t := by
  obtain ⟨hl, hh, hn, he⟩ := h
  obtain ⟨hl', hh', hn', he'⟩ := h'
  exact ⟨hl.trans hl', hh.trans hh', hn.trans hn', he.trans he'⟩

/-- A word writes the same registers and appends the same response to whatever responses are pending. -/
theorem State.SameRegs.runWord {s t s' t' : State} (h : s.SameRegs t) {w : Word32} (hs : runWord w s = .next s')
    (ht : runWord w t = .next t') :
    s'.SameRegs t' ∧ ∃ r, s'.responses = s.responses ++ [r] ∧ t'.responses = t.responses ++ [r] := by
  obtain ⟨hunits, hsticky⟩ := (State.sameRegs_iff s t).mp h
  obtain ⟨s'', t'', b, r, hs', ht', hsame, sticky_s, sticky_t, rsp_s, rsp_t⟩ := runWord_sameUnits hunits w
  cases hs'.symm.trans hs
  cases ht'.symm.trans ht
  exact ⟨(State.sameRegs_iff s' t').mpr ⟨hsame, by rw [sticky_s, sticky_t, hsticky]⟩, r, rsp_s, rsp_t⟩

theorem State.SameRegs.performs {ws : List Word32} {s t e f : State} (h : s.SameRegs t) (hs : Performs ws s e)
    (ht : Performs ws t f) :
    e.SameRegs f ∧ ∃ rs, e.responses = s.responses ++ rs ∧ f.responses = t.responses ++ rs := by
  induction ws generalizing s t with
  | nil =>
    cases hs
    cases ht
    exact ⟨h, [], by simp⟩
  | cons w ws ih =>
    obtain ⟨m, hrun, hrest⟩ := hs
    obtain ⟨n, hrun', hrest'⟩ := ht
    obtain ⟨hmn, r, hm, hn⟩ := h.runWord hrun hrun'
    obtain ⟨hef, rs, he, hf⟩ := ih hmn hrest hrest'
    exact ⟨hef, r :: rs, by simp [he, hm], by simp [hf, hn]⟩

/-- What the sequential machine of R40 shows of a state: its registers and all the responses it has answered so far. -/
structure State.SameSequential (s t : State) : Prop where
  regs : s.SameRegs t
  answers : s.delivered ++ s.responses = t.delivered ++ t.responses

theorem State.SameSequential.trans {s m t : State} (h : s.SameSequential m) (h' : m.SameSequential t) :
    s.SameSequential t := ⟨h.regs.trans h'.regs, h.answers.trans h'.answers⟩

theorem State.SameSequential.performs {ws : List Word32} {s t e f : State} (h : s.SameSequential t)
    (hs : Performs ws s e) (ht : Performs ws t f) : e.SameSequential f := by
  obtain ⟨hregs, rs, he, hf⟩ := h.regs.performs hs ht
  refine ⟨hregs, ?_⟩
  calc e.delivered ++ e.responses
    _ = s.delivered ++ s.responses ++ rs := by rw [hs.sameHostSide.delivered, he, List.append_assoc]
    _ = t.delivered ++ t.responses ++ rs := by rw [h.answers]
    _ = f.delivered ++ f.responses := by rw [ht.sameHostSide.delivered, hf, List.append_assoc]

theorem State.SameSequential.runWord {w : Word32} {s t e f : State} (h : s.SameSequential t)
    (hs : runWord w s = .next e) (ht : runWord w t = .next f) : e.SameSequential f :=
  h.performs (ws := [w]) ⟨e, hs, rfl⟩ ⟨f, ht, rfl⟩

/-! ### The parts of a step -/

theorem runWord_accepted {w : Word32} {s t : State} (h : runWord w s = .next t) : t.accepted = s.accepted := by
  obtain ⟨e, -, hraise⟩ | ⟨i, -, -, -, hraise⟩ | ⟨i, -, -, hd, hready, -⟩ := runWord_cases w s
  · cases hraise.symm.trans h
    rfl
  · cases hraise.symm.trans h
    rfl
  · cases ((runWord_ok hd s).trans (exec_of_ready hready)).symm.trans h
    simp

theorem performNext_total (s : State) : ∃ t, performNext s = .next t := by
  cases ha : s.accepted with
  | nil => exact ⟨s, performNext_nil ha⟩
  | cons w ws => exact performNext_cons ha ▸ runWord_total w _

/-- Performing the oldest command now, or it and the others one after another, comes to the same. -/
theorem performNext_performs {s m e f : State} (hperf : performNext s = .next m) {vs : List Word32}
    (hs : Performs (s.accepted ++ vs) s e) (hm : Performs (m.accepted ++ vs) m f) : e.SameSequential f := by
  cases ha : s.accepted with
  | nil =>
    cases (performNext_nil ha).symm.trans hperf
    exact State.SameSequential.performs ⟨.refl s, rfl⟩ hs hm
  | cons w ws =>
    rw [performNext_cons ha] at hperf
    have hacc : m.accepted = ws := runWord_accepted hperf
    rw [ha] at hs
    rw [hacc] at hm
    obtain ⟨n, hrun, hrest⟩ := hs
    have hsame : s.SameSequential { s with accepted := ws } := ⟨.refl s, rfl⟩
    exact (hsame.runWord hrun hperf).performs hrest hm

/-- The command a cycle's handshake accepts, if any (30_encoding.md R46). -/
def State.taken (p : PortIn) (s : State) : List Word32 :=
  if p.cmdValid && (s.portOut p).cmdReady then [p.cmdWord] else []

theorem State.transfer_accepted (p : PortIn) (s : State) : (s.transfer p).accepted = s.accepted ++ s.taken p := by
  simp only [State.transfer, State.taken]
  split <;> split <;> simp

theorem State.transfer_sameRegs (p : PortIn) (s : State) : s.SameRegs (s.transfer p) := by
  simp [State.SameRegs]

/-- A delivery takes a response from the front of the pending ones to the end of the delivered ones. -/
theorem State.deliver_answers (s : State) :
    s.deliver.delivered ++ s.deliver.responses = s.delivered ++ s.responses := by
  cases hs : s.responses <;> simp [hs]

theorem State.transfer_answers (p : PortIn) (s : State) :
    (s.transfer p).delivered ++ (s.transfer p).responses = s.delivered ++ s.responses := by
  obtain h | h | h | h := transfer_cases p s <;> rw [h]
  · exact s.deliver_answers
  · rfl
  · exact s.deliver_answers

theorem State.transfer_sameSequential (p : PortIn) (s : State) : s.SameSequential (s.transfer p) :=
  ⟨s.transfer_sameRegs p, (s.transfer_answers p).symm⟩

/-- A step without reset performs the oldest command and, if the host drives a cycle, ends with its handshakes. -/
theorem step_next_cases_of_no_rst {s t : State} (hrst : ∀ p rest, s.inputs = p :: rest → p.rst = false)
    (hstep : step s = .next t) :
    (s.inputs = [] ∧ performNext s = .next t) ∨
    (∃ p ps m, s.inputs = p :: ps ∧ performNext { s with inputs := ps } = .next m ∧ t = m.transfer p) := by
  obtain h | ⟨p, ps, hin, hreset, -⟩ | ⟨p, ps, m, hin, -, hperf, ht⟩ := step_next_cases hstep
  · exact .inl h
  · exact absurd ((hrst p ps hin).symm.trans hreset) Bool.false_ne_true
  · exact .inr ⟨p, ps, m, hin, hperf, ht⟩

/-- R40 for one port cycle, the command it accepts included. -/
theorem cycle_performs {s m e f : State} {p : PortIn} {ps : List PortIn}
    (hperf : performNext { s with inputs := ps } = .next m) (hs : Performs (s.accepted ++ m.taken p) s e)
    (ht : Performs (m.transfer p).accepted (m.transfer p) f) : e.SameSequential f := by
  rw [State.transfer_accepted] at ht
  have hbefore : s.SameSequential { s with inputs := ps } := ⟨.refl s, rfl⟩
  obtain ⟨e', he'⟩ := performs_total (s.accepted ++ m.taken p) { s with inputs := ps }
  obtain ⟨f', hf'⟩ := performs_total (m.accepted ++ m.taken p) m
  exact ((hbefore.performs hs he').trans (performNext_performs hperf he' hf')).trans
    ((m.transfer_sameSequential p).performs hf' ht)

/-- R40 for one step: what the accepted commands and the one it accepts come to is the same before and after it. -/
theorem step_performs {s t : State} (hrst : ∀ p rest, s.inputs = p :: rest → p.rst = false) (hstep : step s = .next t) :
    ∃ taken : List Word32, (taken = [] ∨ ∃ p rest, s.inputs = p :: rest ∧ taken = [p.cmdWord]) ∧
      ∀ e f, Performs (s.accepted ++ taken) s e → Performs t.accepted t f → e.SameSequential f := by
  obtain ⟨-, hperf⟩ | ⟨p, ps, m, hin, hperf, rfl⟩ := step_next_cases_of_no_rst hrst hstep
  · exact ⟨[], .inl rfl, fun e f he hf => performNext_performs hperf he (by simpa using hf)⟩
  · refine ⟨m.taken p, ?_, fun e f he hf => cycle_performs hperf he hf⟩
    by_cases h : (p.cmdValid && (m.portOut p).cmdReady) = true
    · exact .inr ⟨p, ps, hin, if_pos h⟩
    · exact .inl (if_neg h)

/-- Settles O58: both sequential runs exist, and they agree. -/
theorem stepRefinesSequentialMachine : Obligations.StepRefinesSequentialMachine := by
  intro s t hrst hstep
  obtain ⟨taken, htaken, hsame⟩ := step_performs hrst hstep
  obtain ⟨e, he⟩ := performs_total (s.accepted ++ taken) s
  obtain ⟨f, hf⟩ := performs_total t.accepted t
  have hef := hsame e f he hf
  exact ⟨taken, htaken, e, f, he, hf, hef.regs, hef.answers⟩

/-! ### No word and no state stops the machine -/

/-- Settles O30: a word is always performed, and neither the handshakes nor a reset stop a step. -/
theorem everyStepGoesOn : Obligations.EveryStepGoesOn := by
  intro s
  cases hin : s.inputs with
  | nil => exact step_nil hin ▸ performNext_total s
  | cons p ps =>
    cases hrst : p.rst with
    | true => exact ⟨_, step_of_rst hin hrst⟩
    | false =>
      obtain ⟨m, hm⟩ := performNext_total { s with inputs := ps }
      exact ⟨_, (step_cons hin).trans ((portCycle_next_iff hrst _ _).mpr ⟨m, hm, rfl⟩)⟩

/-- Settles O28: a word reads the registers of the units only, and `ERR_STICKY` is in none. -/
theorem stickyBitsChangeNoResult : Obligations.StickyBitsChangeNoResult := by
  intro w s b
  have hunits (u : UnitId) : State.SameUnit u s { s with errSticky := b } := by cases u <;> rfl
  obtain ⟨t, t', -, r, ht, ht', hsame, -, -, hrsp, hrsp'⟩ := runWord_sameUnits hunits w
  exact ⟨t, t', ht, ht', hsame .lpf, hsame .hpf, hsame .nlpf, hrsp.trans hrsp'.symm⟩

end Sys2Proof.Machine

/-! # Assembler text (30_encoding.md R60 to R62)

The idea: a line whose mnemonic holds no separator reads as its mnemonic, parsed, and the words of the rest. So a line
depends on its mnemonic's meaning only, which R61's names share with INIT and SETC, and the line of a command reads back
once a number's decimal digits do. -/

namespace Sys2Proof.Machine

/-! ### The words of a line -/

theorem words_append_blank {w : List Char} (hne : w ≠ []) (hw : ∀ c ∈ w, isBlank c = false) {b : Char}
    (hb : isBlank b = true) (rest : List Char) : words (w ++ b :: rest) = w :: words rest := by
  induction w with
  | nil => exact absurd rfl hne
  | cons c cs ih =>
    obtain ⟨hc, hcs⟩ := List.forall_mem_cons.mp hw
    cases cs with
    | nil => simp [words, hc, hb]
    | cons d ds =>
      have hd : isBlank d = false := hcs d List.mem_cons_self
      have hrest := ih (List.cons_ne_nil d ds) hcs
      simp only [List.cons_append] at hrest ⊢
      rw [words, hrest]
      simp [hc, hd]

theorem words_eq_singleton {w : List Char} (hne : w ≠ []) (hw : ∀ c ∈ w, isBlank c = false) : words w = [w] := by
  induction w with
  | nil => exact absurd rfl hne
  | cons c cs ih =>
    obtain ⟨hc, hcs⟩ := List.forall_mem_cons.mp hw
    cases cs with
    | nil => simp [words, hc]
    | cons d ds =>
      have hd : isBlank d = false := hcs d List.mem_cons_self
      rw [words, ih (List.cons_ne_nil d ds) hcs]
      simp [hc, hd]

/-! ### A line without label and comment -/

/-- The characters that end a part of a line: white space, the label's `:` and the comment's `;`. -/
def isSeparator (c : Char) : Bool := isBlank c || c == ':' || c == ';'

theorem withoutComment_of_not_mem {l : List Char} (h : ';' ∉ l) : withoutComment l = l :=
  List.takeWhile_eq_self_iff.mpr fun _ hc => bne_iff_ne.mpr (ne_of_mem_of_not_mem hc h)

theorem withoutLabel_of_not_mem {l : List Char} (h : ':' ∉ l) : withoutLabel l = .ok l := by
  simp [withoutLabel, h]

/-- What a mnemonic and the words after it assemble to. -/
def assembleMnemonic (m : List Char) (operands : List (List Char)) : Except AsmError Instr :=
  match parseMnemonic m with
  | none => .error .unknownMnemonic
  | some (u, o) => assembleParts u o operands

theorem assembleLine_of_words {l m : List Char} {operands : List (List Char)} (hcolon : ':' ∉ l) (hsemi : ';' ∉ l)
    (hwords : words l = m :: operands) : assembleLine l = assembleMnemonic m operands := by
  simp only [assembleLine, withoutComment_of_not_mem hsemi, withoutLabel_of_not_mem hcolon, hwords]
  rfl

theorem not_mem_of_no_separator {m : List Char} (hm : m.all (!isSeparator ·) = true) {c : Char}
    (hc : isSeparator c = true) : c ∉ m := fun hmem => by
  simpa [hc] using List.all_eq_true.mp hm c hmem

theorem not_blank_of_no_separator {m : List Char} (hm : m.all (!isSeparator ·) = true) :
    ∀ c ∈ m, isBlank c = false := fun c hmem => by
  have hsep := List.all_eq_true.mp hm c hmem
  simp only [isSeparator, Bool.not_or, Bool.and_eq_true, Bool.not_eq_true'] at hsep
  obtain ⟨⟨hblank, -⟩, -⟩ := hsep
  exact hblank

theorem assembleLine_mnemonic_only {m : List Char} (hne : m ≠ []) (hm : m.all (!isSeparator ·) = true) :
    assembleLine m = assembleMnemonic m [] :=
  assembleLine_of_words (not_mem_of_no_separator hm rfl) (not_mem_of_no_separator hm rfl)
    (words_eq_singleton hne (not_blank_of_no_separator hm))

theorem assembleLine_mnemonic_operand {m : List Char} (hne : m ≠ []) (hm : m.all (!isSeparator ·) = true)
    {rest : List Char} (hcolon : ':' ∉ rest) (hsemi : ';' ∉ rest) :
    assembleLine (m ++ [' '] ++ rest) = assembleMnemonic m (words rest) := by
  have hcolon' : ':' ∉ m := not_mem_of_no_separator hm rfl
  have hsemi' : ';' ∉ m := not_mem_of_no_separator hm rfl
  refine assembleLine_of_words (by simp [hcolon, hcolon']) (by simp [hsemi, hsemi']) ?_
  rw [List.append_assoc]
  exact words_append_blank hne (not_blank_of_no_separator hm) rfl rest

/-! ### The mnemonics -/

/-- R60 `mnemonic`, with any name in the place of the operation's. -/
def mnemonic (u : UnitId) (name : List Char) : List Char := unitName u ++ ['.'] ++ name

theorem mnemonic_ne_nil (u : UnitId) (name : List Char) : mnemonic u name ≠ [] := by simp [mnemonic]

theorem unitName_no_separator (u : UnitId) : (unitName u).all (!isSeparator ·) = true := by cases u <;> decide

theorem mnemonic_no_separator (u : UnitId) {name : List Char} (h : name.all (!isSeparator ·) = true) :
    (mnemonic u name).all (!isSeparator ·) = true := by
  rw [mnemonic, List.all_append, List.all_append, unitName_no_separator, h]
  rfl

theorem parseMnemonic_mnemonic (u : UnitId) (name : List Char) :
    parseMnemonic (mnemonic u name) = (parseOp name).map (u, ·) := by
  cases u <;> cases hop : parseOp name <;>
    simp [parseMnemonic, mnemonic, unitName, parseUnit, hop]

theorem assembleMnemonic_mnemonic (u : UnitId) {name : List Char} {o : Op} (h : parseOp name = some o)
    (operands : List (List Char)) : assembleMnemonic (mnemonic u name) operands = assembleParts u o operands := by
  rw [assembleMnemonic, parseMnemonic_mnemonic, h]
  rfl

/-- Two names of one operation are interchangeable in a line with an operand text. -/
theorem assembleLine_name_eq (u : UnitId) {name name' : List Char} {o : Op} (hname : parseOp name = some o)
    (hname' : parseOp name' = some o) (hsep : name.all (!isSeparator ·) = true)
    (hsep' : name'.all (!isSeparator ·) = true) {operand : List Char} (hcolon : ':' ∉ operand) (hsemi : ';' ∉ operand) :
    assembleLine (mnemonic u name ++ [' '] ++ operand) = assembleLine (mnemonic u name' ++ [' '] ++ operand) := by
  rw [assembleLine_mnemonic_operand (mnemonic_ne_nil u name) (mnemonic_no_separator u hsep) hcolon hsemi,
    assembleLine_mnemonic_operand (mnemonic_ne_nil u name') (mnemonic_no_separator u hsep') hcolon hsemi,
    assembleMnemonic_mnemonic u hname, assembleMnemonic_mnemonic u hname']

/-- Settles O7: the source's names stand for the same operations (R61). -/
theorem pseudoInstructionsAreInitAndSetc : Obligations.PseudoInstructionsAreInitAndSetc := by
  intro u operand hcolon hsemi
  exact ⟨assembleLine_name_eq u (o := .init) (by decide) (by decide) (by decide) (by decide) hcolon hsemi,
    assembleLine_name_eq u (o := .setc) (by decide) (by decide) (by decide) (by decide) hcolon hsemi⟩

/-! ### Decimal numbers, written and read -/

theorem digitValue_digitChar {d : Nat} (h : d < 10) : digitValue 10 (digitChar d) = some d := by
  revert d
  decide

theorem digitChar_ne_x {d : Nat} (h : d < 10) : digitChar d ≠ 'x' := by
  revert d
  decide

theorem digitChar_not_separator {d : Nat} (h : d < 10) : isSeparator (digitChar d) = false := by
  revert d
  decide

theorem decimalDigits_ne_nil (k v : Nat) : decimalDigits k v ≠ [] := by
  cases k with
  | zero => simp [decimalDigits]
  | succ k =>
    rw [decimalDigits]
    split <;> simp

/-- Every decimal digit written is the digit of a value below 10. -/
theorem forall_mem_decimalDigits {P : Char → Prop} (hP : ∀ d < 10, P (digitChar d)) (k v : Nat) :
    ∀ c ∈ decimalDigits k v, P c := by
  have hlast : P (digitChar (v % 10)) := hP _ (Nat.mod_lt _ (by decide))
  induction k generalizing v with
  | zero => simpa [decimalDigits] using hlast
  | succ k ih =>
    rw [decimalDigits]
    split
    case isTrue hv => simpa using hP v hv
    case isFalse =>
      have hinit := ih (v / 10) (hP _ (Nat.mod_lt _ (by decide)))
      exact List.forall_mem_append.mpr ⟨hinit, by simpa using hlast⟩

theorem parseDigits_append_digit (base n : Nat) (ds : List Char) (c : Char) : parseDigits base n (ds ++ [c]) =
    (parseDigits base n ds).bind fun m => (digitValue base c).map (m * base + ·) := by
  induction ds generalizing n with
  | nil => cases h : digitValue base c <;> simp [parseDigits, h]
  | cons d ds ih => cases h : digitValue base d <;> simp [parseDigits, h, ih]

theorem parseDigits_decimalDigits {k v : Nat} (h : v < 10 ^ (k + 1)) :
    parseDigits 10 0 (decimalDigits k v) = some v := by
  induction k generalizing v with
  | zero =>
    have hv : v < 10 := by simpa using h
    simp [decimalDigits, parseDigits, Nat.mod_eq_of_lt hv, digitValue_digitChar hv]
  | succ k ih =>
    rw [decimalDigits]
    split
    case isTrue hv => simp [parseDigits, digitValue_digitChar hv]
    case isFalse =>
      have hhigh : v / 10 < 10 ^ (k + 1) := Nat.div_lt_of_lt_mul (by rwa [← Nat.pow_succ'])
      rw [parseDigits_append_digit, ih hhigh, digitValue_digitChar (Nat.mod_lt v (by decide))]
      simp [Nat.div_add_mod']

/-- A text without an `x` is no hexadecimal number. -/
theorem parseNumber_eq_parseDigits {ds : List Char} (hne : ds ≠ []) (hx : 'x' ∉ ds) :
    parseNumber ds = parseDigits 10 0 ds := by
  unfold parseNumber
  split
  · exact absurd rfl hne
  · simp at hx
  · simp at hx
  · rfl

theorem parseOperand_decimalDigits (d : U16) : parseOperand (decimalDigits 4 d.toNat) = .ok d := by
  have hx : 'x' ∉ decimalDigits 4 d.toNat := fun hmem =>
    forall_mem_decimalDigits (P := (· ≠ 'x')) (fun _ => digitChar_ne_x) 4 d.toNat 'x' hmem rfl
  have hlt : d.toNat < 10 ^ (4 + 1) := d.isLt.trans (by decide)
  have hrange : operandInRange d.toNat = true := decide_eq_true d.isLt
  rw [parseOperand, parseNumber_eq_parseDigits (decimalDigits_ne_nil 4 _) hx, parseDigits_decimalDigits hlt]
  simp [hrange]

/-! ### The line of a command -/

theorem opName_no_separator (o : Op) : (opName o).all (!isSeparator ·) = true := by cases o <;> decide

theorem parseOp_opName (o : Op) : parseOp (opName o) = some o := by cases o <;> decide

theorem decimalDigits_no_separator (k v : Nat) : (decimalDigits k v).all (!isSeparator ·) = true :=
  List.all_eq_true.mpr (forall_mem_decimalDigits (fun _ hd => by simp [digitChar_not_separator hd]) k v)

theorem assembleParts_operand (u : UnitId) {o : Op} (h : o ≠ .reset) (d : List Char) :
    assembleParts u o [d] = (parseOperand d).map (Instr.ofParts u o) := by
  cases o with
  | reset => exact absurd rfl h
  | init | process | setc => rfl

/-- Settles O6: the mnemonic names the unit and the operation, the digits read back to the operand, and R60's grammar
asks for an operand exactly where the line has one. -/
theorem assemblyTextAssembles : Obligations.AssemblyTextAssembles := by
  intro i
  have hne := mnemonic_ne_nil i.unit (opName i.op)
  have hsep := mnemonic_no_separator i.unit (opName_no_separator i.op)
  by_cases hop : i.op = .reset
  case pos =>
    have htext : assemblyText i = mnemonic i.unit (opName i.op) := if_pos hop
    rw [htext, assembleLine_mnemonic_only hne hsep, assembleMnemonic_mnemonic i.unit (parseOp_opName i.op), hop]
    calc assembleParts i.unit .reset []
      _ = .ok (Instr.ofParts i.unit i.op i.data) := by rw [hop, Instr.data_eq_zero_of_op_reset hop]; rfl
      _ = .ok i := by rw [Instr.ofParts_self]
  case neg =>
    have htext : assemblyText i = mnemonic i.unit (opName i.op) ++ [' '] ++ decimalDigits 4 i.data.toNat := if_neg hop
    have hdigits := decimalDigits_no_separator 4 i.data.toNat
    rw [htext, assembleLine_mnemonic_operand hne hsep (not_mem_of_no_separator hdigits rfl)
        (not_mem_of_no_separator hdigits rfl),
      words_eq_singleton (decimalDigits_ne_nil 4 _) (not_blank_of_no_separator hdigits),
      assembleMnemonic_mnemonic i.unit (parseOp_opName i.op), assembleParts_operand i.unit hop,
      parseOperand_decimalDigits]
    exact congrArg Except.ok i.ofParts_self

end Sys2Proof.Machine

/-! # The laws of the coefficients (40_coefficient.md R66, R70)

The idea: `CoeffBasic` wraps exactly where `raw + 1` or `127 - alpha` leaves u16, and `CoeffNorm` shifts out only bits
below the highest one. -/

namespace Sys2Proof.Machine

/-- Settles O10: above 126 the integer `126 - raw` is negative, and no register holds it. -/
theorem legalCoefficientsAreExactly : Obligations.LegalCoefficientsAreExactly := by
  intro raw
  have halpha := coeffBasic_alpha_toNat raw
  have homa := coeffBasic_oma_toNat raw
  omega

/-- The shift of R67 keeps the highest bit of a coefficient. -/
theorem coeffNorm_alpha_eq_zero_iff (raw : U16) : (coeffNorm raw).alpha = 0 ↔ raw = 0 := by
  have hshift : normShift raw = raw.toNat.size - 6 := by rw [normShift_eq_sub, bitwidth16_eq_size]
  constructor
  · intro h
    have hdiv : raw.toNat / 2 ^ normShift raw = 0 := by rw [← coeffNorm_alpha_toNat, h]; rfl
    have hlt : raw.toNat < 2 ^ normShift raw :=
      (Nat.div_eq_zero_iff.mp hdiv).resolve_left (Nat.two_pow_pos _).ne'
    have hsize : raw.toNat.size = 0 := by
      have := Nat.size_le.mpr hlt
      omega
    exact BitVec.eq_of_toNat_eq (Nat.size_eq_zero.mp hsize)
  · rintro rfl
    rfl

/-- Settles O12: `alpha` is the quotient of `raw` by `2 ^ ash`. -/
theorem normalizedCoefficientDropsLowBits : Obligations.NormalizedCoefficientDropsLowBits := by
  intro raw c
  have hkept : c.alpha.toNat * 2 ^ c.ash.toNat = raw.toNat - raw.toNat % 2 ^ c.ash.toNat := by
    rw [coeffNorm_alpha_toNat, coeffNorm_ash_toNat, mul_comm]
    exact Nat.mul_div_self_eq_mod_sub_self
  have hle : raw.toNat % 2 ^ c.ash.toNat ≤ raw.toNat := Nat.mod_le ..
  refine ⟨hkept, ?_, coeffNorm_alpha_eq_zero_iff raw⟩
  rw [hkept, Nat.sub_sub_self hle]
  exact Nat.mod_lt _ (Nat.two_pow_pos _)

end Sys2Proof.Machine

/-! # Each command's own effect (41_lowpass.md R72 to R75, 42_highpass.md R77 to R80, 43_normalized.md R90 to R93)

The idea: `exec_of_ready` says what a command writes and answers in the model's terms; here those terms are given as the
formulas of the rules. -/

namespace Sys2Proof.Machine

/-! ### The written registers and the response as the rules write them -/

/-- R52: with STATUS OK the response is RESULT with zeros above it. -/
theorem rspWord_ok (v : U16) : rspWord .ok v = v.setWidth 32 := by
  rw [rspWord, BitVec.setWidth_eq_append (by decide)]
  rfl

theorem LowPassRegs.apply_setc (raw : U16) (u : LowPassRegs) :
    u.apply .setc raw = { u with alpha := raw + 1, oma := 126 - raw, cfg := true } := by
  rw [LowPassRegs.apply, LowPassRegs.setCoeff, coeffBasic_alpha, coeffBasic_oma_eq_sub_raw]

theorem LowPassRegs.apply_init (raw : U16) (u : LowPassRegs) :
    u.apply .init raw = { alpha := raw + 1, oma := 126 - raw, last := 0, cfg := true } :=
  congrArg (LowPassRegs.setLast 0) (u.apply_setc raw)

theorem NormRegs.apply_setc (raw : U16) (u : NormRegs) : u.apply .setc raw =
    { u with alpha := BitVec.ofNat 6 (raw.toNat / 2 ^ (raw.toNat.size - 6)),
             ash := BitVec.ofNat 4 (raw.toNat.size - 6), cfg := true } := by
  rw [NormRegs.apply, NormRegs.setCoeff, coeffNorm, normShift_eq_sub, bitwidth16_eq_size, Nat.shiftRight_eq_div_pow]

theorem NormRegs.apply_init (raw : U16) (u : NormRegs) : u.apply .init raw =
    { alpha := BitVec.ofNat 6 (raw.toNat / 2 ^ (raw.toNat.size - 6)),
      ash := BitVec.ofNat 4 (raw.toNat.size - 6), last := 0, cfg := true } :=
  congrArg (NormRegs.setLast 0) (u.apply_setc raw)

theorem LowPassRegs.output_eq (u : LowPassRegs) (x : U16) : u.output x =
    BitVec.ofNat 16 ((u.alpha.toNat * x.toNat + u.oma.toNat * u.last.toNat) % 2 ^ 32 / 2 ^ 7) :=
  BitVec.eq_of_toNat_eq ((lpfStep_toNat ..).trans (BitVec.toNat_ofNat ..).symm)

/-- The saturated write-back of the re-aligned sum, as one number (R88, R89). -/
theorem normStep_toNat (alpha : BitVec 6) (ash : BitVec 4) (last x : U16) :
    (normStep .saturate alpha ash last x).toNat =
      min (normAcc alpha ash last x / 2 ^ (6 - preShiftAmount x)) 65535 := by
  have hlt := sat_lt Config.W (normAcc alpha ash last x >>> (Config.NWIN - preShiftAmount x))
  calc (normStep .saturate alpha ash last x).toNat
    _ = sat Config.W (normAcc alpha ash last x >>> (Config.NWIN - preShiftAmount x)) :=
      (BitVec.toNat_ofNat ..).trans (Nat.mod_eq_of_lt hlt)
    _ = min (normAcc alpha ash last x / 2 ^ (6 - preShiftAmount x)) 65535 := by
      rw [sat, Nat.shiftRight_eq_div_pow]; rfl

theorem preShiftAmount_eq_size_sub (v : U16) : preShiftAmount v = v.toNat.size - 10 := by
  rw [preShiftAmount_eq_sub, bitwidth16_eq_size]

theorem preShifted_eq_size (v : U16) : preShifted v = v.toNat / 2 ^ (v.toNat.size - 10) := by
  rw [preShifted_eq_div, preShiftAmount_eq_size_sub]

/-! ### The units' commands -/

theorem State.result_eq_zero {o : Op} (h : o ≠ .process) (u : UnitId) (d : U16) (s : State) : s.result u o d = 0 := by
  cases o with
  | process => exact absurd rfl h
  | init | setc | reset => rfl

theorem exec_of_not_process {i : Instr} (h : i.op ≠ .process) (s : State) :
    exec i s = .next ((s.write i.unit i.op i.data).pushResponse 0x00000000) := by
  rw [exec_of_ready (fun hop => absurd hop h), State.result_eq_zero h, rspWord_ok]
  rfl

/-- Settles O13. -/
theorem lpfInitResult : Obligations.LpfInitResult := fun raw s => by
  calc exec (.lpfInit raw) s
    _ = .next ((s.setLpf (s.lpf.apply .init raw)).pushResponse 0) := exec_of_not_process (by nofun) s
    _ = _ := by rw [LowPassRegs.apply_init]; rfl

/-- Settles O14. -/
theorem lpfProcessResult : Obligations.LpfProcessResult := by
  intro x s hcfg
  rw [exec_lpfProcess_of_cfg hcfg, rspWord_ok, LowPassRegs.output_eq]
  rfl

/-- Settles O15. -/
theorem lpfSetcResult : Obligations.LpfSetcResult := fun raw s => by
  calc exec (.lpfSetc raw) s
    _ = .next ((s.setLpf (s.lpf.apply .setc raw)).pushResponse 0) := exec_of_not_process (by nofun) s
    _ = _ := by rw [LowPassRegs.apply_setc]; rfl

/-- Settles O16. -/
theorem lpfResetResult : Obligations.LpfResetResult := exec_of_not_process (by nofun)

/-- Settles O17. -/
theorem hpfInitResult : Obligations.HpfInitResult := fun raw s => by
  calc exec (.hpfInit raw) s
    _ = .next ((s.setHpf (s.hpf.apply .init raw)).pushResponse 0) := exec_of_not_process (by nofun) s
    _ = _ := by rw [LowPassRegs.apply_init]; rfl

/-- The RESULT of `hpf.process` under CLAMP, as a difference of natural numbers (R78). -/
theorem rspWord_ok_highPass (x low : U16) :
    rspWord .ok (highPass .clamp x low) = BitVec.ofNat 32 (x.toNat - low.toNat) := by
  rw [rspWord_ok, ← BitVec.ofNat_toNat, highPass_clamp_toNat]

/-- Settles O18. -/
theorem hpfProcessResult : Obligations.HpfProcessResult := by
  intro x s hcfg
  rw [exec_hpfProcess_of_cfg hcfg, rspWord_ok_highPass, LowPassRegs.output_eq]
  rfl

/-- Settles O19. -/
theorem hpfSetcResult : Obligations.HpfSetcResult := fun raw s => by
  calc exec (.hpfSetc raw) s
    _ = .next ((s.setHpf (s.hpf.apply .setc raw)).pushResponse 0) := exec_of_not_process (by nofun) s
    _ = _ := by rw [LowPassRegs.apply_setc]; rfl

/-- Settles O20. -/
theorem hpfResetResult : Obligations.HpfResetResult := exec_of_not_process (by nofun)

/-- Settles O21. -/
theorem nlpfInitResult : Obligations.NlpfInitResult := fun raw s => by
  calc exec (.nlpfInit raw) s
    _ = .next ((s.setNlpf (s.nlpf.apply .init raw)).pushResponse 0) := exec_of_not_process (by nofun) s
    _ = _ := by rw [NormRegs.apply_init]; rfl

theorem NormRegs.output_eq (u : NormRegs) (x : U16) : u.output x =
    BitVec.ofNat 16 (min ((inputProduct u.alpha x + stateProduct u.alpha u.last) * 2 ^ u.ash.toNat /
      2 ^ (6 - preShiftAmount x)) 65535) := by
  have hlt := (u.output x).isLt
  refine BitVec.eq_of_toNat_eq ?_
  rw [BitVec.toNat_ofNat, ← normAcc_eq, ← normStep_toNat]
  exact (Nat.mod_eq_of_lt hlt).symm

/-- Settles O22: no narrowing before the write-back loses anything (`normAcc_eq`), for any `ash` of 4 bits. -/
theorem nlpfProcessResult : Obligations.NlpfProcessResult := by
  intro x s hcfg
  rw [exec_nlpfProcess_of_cfg hcfg, rspWord_ok, NormRegs.output_eq, inputProduct, stateProduct, preShifted_eq_size,
    preShifted_eq_size, preShiftAmount_eq_size_sub]
  rfl

/-- Settles O23. -/
theorem nlpfSetcResult : Obligations.NlpfSetcResult := fun raw s => by
  calc exec (.nlpfSetc raw) s
    _ = .next ((s.setNlpf (s.nlpf.apply .setc raw)).pushResponse 0) := exec_of_not_process (by nofun) s
    _ = _ := by rw [NormRegs.apply_setc]; rfl

/-- Settles O24. -/
theorem nlpfResetResult : Obligations.NlpfResetResult := exec_of_not_process (by nofun)

/-- Settles O25: `raise` sets bit 1 and answers NOT_CONFIGURED with RESULT 0. -/
theorem unconfiguredProcessRaises : Obligations.UnconfiguredProcessRaises := by
  intro i s hop hcfg
  rw [exec_process_of_not_configured hop hcfg, State.raise, rspWord_notConfigured]
  rfl

end Sys2Proof.Machine

/-! # The laws of the low-pass datapath (41_lowpass.md R71, R76)

The idea: with a legal coefficient `alpha` the complement is `127 - alpha`, so a step is the weighted sum
`alpha * x + (127 - alpha) * last` divided by 128, with no narrowing. That is a monotone function of the state on the
natural numbers, and everything R76 says is said of it there. -/

namespace Sys2Proof.Machine

/-! ### The step as a function on natural numbers -/

/-- `LpfStep` with a legal coefficient `a` on sample `x` and state `l`, as natural numbers (`lpfStep_legal`). -/
def weightedStep (a x l : Nat) : Nat := (a * x + (127 - a) * l) / 2 ^ 7

theorem coeffBasic_alpha_le {raw : U16} (h : legalRaw raw) : (coeffBasic raw).alpha.toNat ≤ 127 := by
  have halpha := coeffBasic_alpha_toNat raw
  omega

theorem coeffBasic_oma_of_legal {raw : U16} (h : legalRaw raw) :
    (coeffBasic raw).oma.toNat = 127 - (coeffBasic raw).alpha.toNat := by
  have halpha := coeffBasic_alpha_toNat raw
  have homa := coeffBasic_oma_toNat raw
  omega

theorem weighted_sum_le {a x l m : Nat} (ha : a ≤ 127) (hx : x ≤ m) (hl : l ≤ m) : a * x + (127 - a) * l ≤ 127 * m := by
  calc a * x + (127 - a) * l
    _ ≤ a * m + (127 - a) * m := Nat.add_le_add (Nat.mul_le_mul_left _ hx) (Nat.mul_le_mul_left _ hl)
    _ = 127 * m := by rw [← Nat.add_mul, Nat.add_sub_of_le ha]

theorem lpfStep_legal {raw : U16} (h : legalRaw raw) (last x : U16) :
    (lpfStep (coeffBasic raw).alpha (coeffBasic raw).oma last x).toNat =
      weightedStep (coeffBasic raw).alpha.toNat x.toNat last.toNat := by
  have hsum := weighted_sum_le (coeffBasic_alpha_le h) (Nat.le_of_lt_succ x.isLt) (Nat.le_of_lt_succ last.isLt)
  rw [lpfStep_toNat, coeffBasic_oma_of_legal h, weightedStep]
  omega

/-- Settles O31: the weights sum to 127, so the sum is at most 127 times 65535. -/
theorem lpfLegalNeverOverflows : Obligations.LpfLegalNeverOverflows := by
  intro raw last x h c
  have hsum := weighted_sum_le (coeffBasic_alpha_le h) (Nat.le_of_lt_succ x.isLt) (Nat.le_of_lt_succ last.isLt)
  rw [lpfStep_legal h, weightedStep, coeffBasic_oma_of_legal h]
  exact ⟨hsum, rfl, Nat.div_le_div_right hsum⟩

/-! ### Monotone and bounded -/

theorem weightedStep_mono (a : Nat) {x x' l l' : Nat} (hx : x ≤ x') (hl : l ≤ l') :
    weightedStep a x l ≤ weightedStep a x' l' :=
  Nat.div_le_div_right (Nat.add_le_add (Nat.mul_le_mul_left _ hx) (Nat.mul_le_mul_left _ hl))

/-- Settles O32: the weights sum to less than the divisor. -/
theorem lpfLegalMonotoneAndBounded : Obligations.LpfLegalMonotoneAndBounded := by
  intro raw last last' x x' h c
  have hsum := weighted_sum_le (coeffBasic_alpha_le h) (Nat.le_max_left x.toNat last.toNat)
    (Nat.le_max_right x.toNat last.toNat)
  simp only [BitVec.le_def, c, lpfStep_legal h]
  refine ⟨fun hlast hx => weightedStep_mono _ hx hlast, ?_, fun hpos => ?_⟩ <;> unfold weightedStep <;> omega

/-! ### Fixed points -/

theorem weightedStep_eq {a : Nat} (ha : a ≤ 127) (v y : Nat) :
    weightedStep a v y = (a * v + 127 * y - a * y) / 2 ^ 7 := by
  have hle : a * y ≤ 127 * y := Nat.mul_le_mul_right y ha
  rw [weightedStep, Nat.sub_mul, Nat.add_sub_assoc hle]

/-- Below the fixed points a step increases (R76 item 4). -/
theorem lt_weightedStep_iff {a : Nat} (ha : a ≤ 127) (v y : Nat) :
    y < weightedStep a v y ↔ (a + 1) * y + 128 ≤ a * v := by
  have hle : a * y ≤ 127 * y := Nat.mul_le_mul_right y ha
  rw [weightedStep_eq ha, Nat.succ_mul a y]
  omega

/-- Above the fixed points a step decreases (R76 item 4). -/
theorem weightedStep_lt_iff {a : Nat} (ha : a ≤ 127) (v y : Nat) :
    weightedStep a v y < y ↔ a * v < (a + 1) * y := by
  have hle : a * y ≤ 127 * y := Nat.mul_le_mul_right y ha
  rw [weightedStep_eq ha, Nat.succ_mul a y]
  omega

theorem weightedStep_eq_iff {a : Nat} (ha : a ≤ 127) (v y : Nat) :
    weightedStep a v y = y ↔ a * v < (a + 1) * y + 128 ∧ (a + 1) * y ≤ a * v := by
  have hlt := lt_weightedStep_iff ha v y
  have hgt := weightedStep_lt_iff ha v y
  omega

/-- The least fixed point under a held `v`: `a * v - 127`, divided by `a + 1` and rounded up. -/
def fixedLow (a v : Nat) : Nat := (a * v - 127 + a) / (a + 1)

/-- The greatest fixed point under a held `v`. -/
def fixedHigh (a v : Nat) : Nat := a * v / (a + 1)

theorem fixedLow_le_iff (a v y : Nat) : fixedLow a v ≤ y ↔ a * v < (a + 1) * y + 128 := by
  rw [fixedLow, ← Nat.lt_succ_iff, Nat.div_lt_iff_lt_mul a.add_one_pos, Nat.succ_mul, Nat.mul_comm y]
  omega

theorem le_fixedHigh_iff (a v y : Nat) : y ≤ fixedHigh a v ↔ (a + 1) * y ≤ a * v := by
  rw [fixedHigh, Nat.le_div_iff_mul_le a.add_one_pos, Nat.mul_comm]

theorem weightedStep_eq_iff_mem {a : Nat} (ha : a ≤ 127) (v y : Nat) :
    weightedStep a v y = y ↔ fixedLow a v ≤ y ∧ y ≤ fixedHigh a v := by
  rw [weightedStep_eq_iff ha, fixedLow_le_iff, le_fixedHigh_iff]

theorem lt_weightedStep_iff_lt_fixedLow {a : Nat} (ha : a ≤ 127) (v y : Nat) :
    y < weightedStep a v y ↔ y < fixedLow a v := by
  rw [lt_weightedStep_iff ha, ← not_le, ← not_lt, fixedLow_le_iff]

theorem weightedStep_lt_iff_fixedHigh_lt {a : Nat} (ha : a ≤ 127) (v y : Nat) :
    weightedStep a v y < y ↔ fixedHigh a v < y := by
  rw [weightedStep_lt_iff ha, ← not_le, ← not_le, le_fixedHigh_iff]

theorem fixedLow_le_fixedHigh {a : Nat} (ha : a ≤ 127) (v : Nat) : fixedLow a v ≤ fixedHigh a v := by
  have hnext : a * v < (a + 1) * (fixedHigh a v + 1) := Nat.lt_mul_div_succ (a * v) a.add_one_pos
  rw [fixedLow_le_iff]
  rw [Nat.mul_succ] at hnext
  omega

theorem fixedHigh_lt {a v : Nat} (hv : 0 < v) : fixedHigh a v < v := by
  rw [fixedHigh, Nat.div_lt_iff_lt_mul a.add_one_pos, Nat.mul_comm v]
  exact Nat.mul_lt_mul_of_pos_right a.lt_succ_self hv

theorem fixedHigh_le (a v : Nat) : fixedHigh a v ≤ v := by
  obtain rfl | hv := v.eq_zero_or_pos
  · simp [fixedHigh]
  · exact (fixedHigh_lt hv).le

/-- Both ends of the interval fit u16, being at most the held input. -/
theorem toNat_ofNat_of_le_fixedHigh {a n : Nat} {v : U16} (h : n ≤ fixedHigh a v.toNat) :
    (BitVec.ofNat 16 n).toNat = n :=
  (BitVec.toNat_ofNat ..).trans (Nat.mod_eq_of_lt ((h.trans (fixedHigh_le a v.toNat)).trans_lt v.isLt))

/-- Settles O33: a step compares `alpha * v` with `(alpha + 1) * y`. -/
theorem lpfFixedPointInterval : Obligations.LpfFixedPointInterval := by
  intro raw v y h c a
  have ha : c.alpha.toNat ≤ 127 := coeffBasic_alpha_le h
  simp only [← BitVec.toNat_inj, BitVec.lt_def, ne_eq, c, lpfStep_legal h]
  refine ⟨weightedStep_eq_iff ha _ _, (lt_weightedStep_iff ha _ _).mpr, (weightedStep_lt_iff ha _ _).mpr, ?_,
    fun hv => fixedHigh_lt (Nat.pos_of_ne_zero hv)⟩
  have hhigh : (BitVec.ofNat 16 (a * v.toNat / (a + 1))).toNat = fixedHigh a v.toNat :=
    toNat_ofNat_of_le_fixedHigh (le_refl (fixedHigh a v.toNat))
  rw [hhigh, weightedStep_eq_iff_mem ha]
  exact ⟨fixedLow_le_fixedHigh ha _, le_rfl⟩

/-! ### Settling under a held input -/

theorem lpfHold_legal {raw : U16} (h : legalRaw raw) (v last : U16) (n : Nat) :
    (lpfHold (coeffBasic raw).alpha (coeffBasic raw).oma v n last).toNat =
      (weightedStep (coeffBasic raw).alpha.toNat v.toNat)^[n] last.toNat := by
  induction n generalizing last with
  | zero => rfl
  | succ n ih => rw [lpfHold, ih, lpfStep_legal h, Function.iterate_succ_apply]

theorem weightedStep_monotone (a v : Nat) : Monotone (weightedStep a v) :=
  fun _ _ hl => weightedStep_mono a le_rfl hl

/-- What an orbit ends in is a fixed point. -/
theorem map_eq_of_iterate_eventually_eq {f : Nat → Nat} {y b N : Nat} (h : ∀ n, N ≤ n → f^[n] y = b) : f b = b := by
  calc f b
    _ = f (f^[N] y) := by rw [h N le_rfl]
    _ = f^[N + 1] y := (Function.iterate_succ_apply' f N y).symm
    _ = b := h (N + 1) N.le_succ

/-- From below, the outputs increase to the least fixed point, which bounds them. -/
theorem weightedStep_settles_below {a : Nat} (ha : a ≤ 127) {v y : Nat} (hy : y < fixedLow a v) :
    ∃ N, ∀ n, N ≤ n → (weightedStep a v)^[n] y = fixedLow a v := by
  have hmono := weightedStep_monotone a v
  have hfixed : weightedStep a v (fixedLow a v) = fixedLow a v :=
    (weightedStep_eq_iff_mem ha _ _).mpr ⟨le_rfl, fixedLow_le_fixedHigh ha v⟩
  have hbound (n : Nat) : (weightedStep a v)^[n] y ≤ fixedLow a v :=
    (hmono.iterate n hy.le).trans_eq (Function.iterate_fixed hfixed n)
  obtain ⟨b, N, hb⟩ := converges_of_monotone_of_bounded
    (hmono.monotone_iterate_of_le_map (((lt_weightedStep_iff_lt_fixedLow ha v y).mpr hy).le)) hbound
  obtain ⟨hlow, -⟩ := (weightedStep_eq_iff_mem ha v b).mp (map_eq_of_iterate_eventually_eq hb)
  have hend : b = fixedLow a v := le_antisymm (hb N le_rfl ▸ hbound N) hlow
  exact ⟨N, fun n hn => (hb n hn).trans hend⟩

/-- From above, the outputs decrease to the greatest fixed point. -/
theorem weightedStep_settles_above {a : Nat} (ha : a ≤ 127) {v y : Nat} (hy : fixedHigh a v < y) :
    ∃ N, ∀ n, N ≤ n → (weightedStep a v)^[n] y = fixedHigh a v := by
  have hmono := weightedStep_monotone a v
  have hfixed : weightedStep a v (fixedHigh a v) = fixedHigh a v :=
    (weightedStep_eq_iff_mem ha _ _).mpr ⟨fixedLow_le_fixedHigh ha v, le_rfl⟩
  have hbound (n : Nat) : fixedHigh a v ≤ (weightedStep a v)^[n] y :=
    (Function.iterate_fixed hfixed n).symm.trans_le (hmono.iterate n hy.le)
  obtain ⟨N, hN⟩ := WellFoundedLT.antitone_chain_condition
    (hmono.antitone_iterate_of_map_le (((weightedStep_lt_iff_fixedHigh_lt ha v y).mpr hy).le))
  have hb (n : Nat) (hn : N ≤ n) : (weightedStep a v)^[n] y = (weightedStep a v)^[N] y := (hN n hn).symm
  obtain ⟨-, hhigh⟩ := (weightedStep_eq_iff_mem ha v _).mp (map_eq_of_iterate_eventually_eq hb)
  exact ⟨N, fun n hn => (hb n hn).trans (le_antisymm hhigh (hbound N))⟩

/-- R76 items 5 and 6 on the natural numbers: where the outputs end, by where they start. -/
theorem weightedStep_settles {a : Nat} (ha : a ≤ 127) (v y : Nat) : ∃ N, ∀ n, N ≤ n → (weightedStep a v)^[n] y =
    if y < fixedLow a v then fixedLow a v else if fixedHigh a v < y then fixedHigh a v else y := by
  split
  case isTrue hbelow => exact weightedStep_settles_below ha hbelow
  case isFalse hlow =>
    split
    case isTrue habove => exact weightedStep_settles_above ha habove
    case isFalse hhigh =>
      have hfixed := (weightedStep_eq_iff_mem ha v y).mpr ⟨not_lt.mp hlow, not_lt.mp hhigh⟩
      exact ⟨0, fun n _ => Function.iterate_fixed hfixed n⟩

/-- Settles O34: the outputs are the orbit of a monotone function on the natural numbers. -/
theorem lpfSettlesUnderHeldInput : Obligations.LpfSettlesUnderHeldInput := by
  intro raw v last h c y
  have ha : c.alpha.toNat ≤ 127 := coeffBasic_alpha_le h
  have hy (n : Nat) : (y n).toNat = (weightedStep c.alpha.toNat v.toNat)^[n] last.toNat := lpfHold_legal h v last n
  have hmono := weightedStep_monotone c.alpha.toNat v.toNat
  have hlo := toNat_ofNat_of_le_fixedHigh (fixedLow_le_fixedHigh ha v.toNat)
  have hhi := toNat_ofNat_of_le_fixedHigh (le_refl (fixedHigh c.alpha.toNat v.toNat))
  refine ⟨BitVec.ofNat 16 (fixedLow c.alpha.toNat v.toNat), BitVec.ofNat 16 (fixedHigh c.alpha.toNat v.toNat),
    fun z => ?fixed, hhi, fun hbelow n => ?rises, fun habove n => ?falls, ?settles⟩
  case fixed =>
    rw [← BitVec.toNat_inj, lpfStep_legal h, BitVec.le_def, BitVec.le_def, hlo, hhi]
    exact weightedStep_eq_iff_mem ha _ _
  case rises =>
    rw [BitVec.lt_def, hlo] at hbelow
    rw [BitVec.le_def, hy, hy]
    exact hmono.monotone_iterate_of_le_map ((lt_weightedStep_iff_lt_fixedLow ha _ _).mpr hbelow).le n.le_succ
  case falls =>
    rw [BitVec.lt_def, hhi] at habove
    rw [BitVec.le_def, hy, hy]
    exact hmono.antitone_iterate_of_map_le ((weightedStep_lt_iff_fixedHigh_lt ha _ _).mpr habove).le n.le_succ
  case settles =>
    obtain ⟨N, hN⟩ := weightedStep_settles ha v.toNat last.toNat
    refine ⟨N, fun n hn => BitVec.eq_of_toNat_eq ?_⟩
    simp only [BitVec.lt_def, apply_ite BitVec.toNat, hlo, hhi, hy, hN n hn]

end Sys2Proof.Machine

/-! # The laws of the high-pass unit (42_highpass.md R78, R81)

The idea: the output is the input less the output of the owned low-pass filter, which has the same registers as unit LPF
and the same operations. -/

namespace Sys2Proof.Machine

/-- The high-pass value of a negative difference under WRAP is the difference of the words (R78). -/
theorem highPass_wrap_of_lt {x low : U16} (h : x.toNat < low.toNat) : highPass .wrap x low = x - low := by
  have hd : ¬ ((x.toNat : Int) - low.toNat) ≥ 0 := by omega
  calc highPass .wrap x low
    _ = BitVec.ofInt 16 ((x.toNat : Int) - low.toNat) := if_neg hd
    _ = x - low := by simp [sub_eq_add_neg, BitVec.ofInt_add, BitVec.ofInt_neg]

/-- Settles O35: the natural-number difference, the clamp, and the difference of words. -/
theorem highPassReconstruction : Obligations.HighPassReconstruction := by
  refine fun x low => ⟨fun hle p => ?_, fun hlt => ⟨highPass_clamp_of_lt hlt, ?_⟩⟩
  · rw [highPass_of_le p hle, Nat.sub_add_cancel hle]
  · rw [highPass_wrap_of_lt hlt, BitVec.sub_add_cancel]

/-- Settles O36: the two units are ready for the same commands, and a ready one writes both alike. -/
theorem lpfMirrorsOwnedInstance : Obligations.LpfMirrorsOwnedInstance := by
  intro s o d h
  have hsame : s.lpf.apply o d = s.hpf.apply o d := congrArg (LowPassRegs.apply o d) h
  cases o with
  | init | setc | reset => exact ⟨_, _, rfl, rfl, hsame⟩
  | process =>
    have hcfg : s.hpf.cfg = s.lpf.cfg := congrArg LowPassRegs.cfg h.symm
    cases hlpf : s.lpf.cfg with
    | true => exact ⟨_, _, if_pos hlpf, if_pos (hcfg.trans hlpf), hsame⟩
    | false =>
      exact ⟨_, _, exec_process_of_not_configured (i := .lpfProcess d) rfl hlpf,
        exec_process_of_not_configured (i := .hpfProcess d) rfl (hcfg.trans hlpf), h⟩

end Sys2Proof.Machine

/-! # The laws of the normalized datapath (43_normalized.md R95)

The idea: below 1024 nothing is pre-shifted and a step is a weighted average. Under a held 1023 the output depends on
the state through its pre-shifted value alone, monotonically. The first output already has the bit width of all later
ones, or fills the 10 bits of the pre-shift (and then so do they), so from there on a larger state has a larger
pre-shifted value, and an orbit that starts to rise goes on rising until it is constant. -/

namespace Sys2Proof.Machine

/-! ### Operands that are not pre-shifted -/

theorem preShiftAmount_eq_zero {v : U16} (h : v.toNat ≤ 1023) : preShiftAmount v = 0 := by
  rw [preShiftAmount_eq_sub, Nat.sub_eq_zero_of_le]
  exact bitwidth16_le_iff.mpr (Nat.lt_succ_of_le h)

theorem preShifted_eq_self {v : U16} (h : v.toNat ≤ 1023) : preShifted v = v.toNat := by
  rw [preShifted_eq_div, preShiftAmount_eq_zero h, Nat.pow_zero, Nat.div_one]

theorem preShifted_zero : preShifted (0 : U16) = 0 := preShifted_eq_self (Nat.zero_le _)

/-! ### Unity gain -/

/-- With `ash` 0 the write-back loses nothing. -/
theorem normStep_toNat_of_ash_zero (alpha : BitVec 6) (last x : U16) : (normStep .saturate alpha 0 last x).toNat =
    (inputProduct alpha x + stateProduct alpha last) / 2 ^ (6 - preShiftAmount x) := by
  have hacc : normAcc alpha 0 last x = inputProduct alpha x + stateProduct alpha last :=
    (normAcc_eq ..).trans (Nat.mul_one _)
  have hle : (inputProduct alpha x + stateProduct alpha last) / 2 ^ (6 - preShiftAmount x) ≤ 65535 :=
    (Nat.div_le_self ..).trans ((inputProduct_add_stateProduct_le alpha last x).trans (by decide))
  rw [normStep_toNat, hacc, min_eq_left hle]

/-- With `alpha` 0 the sum is 64 times the pre-shifted state. -/
theorem products_of_alpha_zero (last x : U16) : inputProduct 0 x + stateProduct 0 last = 64 * preShifted last := by
  simp [inputProduct, stateProduct]

/-- Settles O38: the sum is divided by 64 less the input's pre-shift. -/
theorem nlpfUnityGain : Obligations.NlpfUnityGain := by
  refine fun alpha last x => ⟨fun hx hlast => ?average, fun hx _ => ?shiftedState, fun _ hlast => ?shiftedInput⟩ <;>
    rw [normStep_toNat_of_ash_zero]
  case average =>
    rw [preShiftAmount_eq_zero hx, inputProduct, stateProduct, preShifted_eq_self hx, preShifted_eq_self hlast]
    rfl
  case shiftedState =>
    rw [products_of_alpha_zero, preShiftAmount_eq_zero hx, preShifted_eq_size]
    exact Nat.mul_div_cancel_left _ (by decide)
  case shiftedInput =>
    have hsplit : 64 = 2 ^ (6 - preShiftAmount x) * 2 ^ preShiftAmount x := by
      rw [← Nat.pow_add, Nat.sub_add_cancel (preShiftAmount_le x)]
    rw [products_of_alpha_zero, preShifted_eq_self hlast, ← preShiftAmount_eq_size_sub, hsplit, Nat.mul_assoc,
      Nat.mul_div_cancel_left _ (Nat.two_pow_pos _), Nat.mul_comm]

/-! ### One step under a held 1023 -/

/-- The output for sample 1023 with `alpha` `a` and `ash` `k`, of a state whose pre-shifted value is `q`
(`normStep_1023_toNat`). -/
def fullScaleStep (a k q : Nat) : Nat := min ((a * 1023 + (64 - a) * q) * 2 ^ k / 64) 65535

/-- The largest of these outputs. -/
def fullScaleTop (k : Nat) : Nat := min (1023 * 2 ^ k) 65535

theorem normStep_1023_toNat (alpha : BitVec 6) (ash : BitVec 4) (last : U16) :
    (normStep .saturate alpha ash last 1023).toNat = fullScaleStep alpha.toNat ash.toNat (preShifted last) := by
  have hx : (1023 : U16).toNat ≤ 1023 := le_rfl
  rw [normStep_toNat, normAcc_eq, preShiftAmount_eq_zero hx, inputProduct, stateProduct, preShifted_eq_self hx]
  rfl

theorem fullScaleStep_mono (a k : Nat) {q q' : Nat} (h : q ≤ q') : fullScaleStep a k q ≤ fullScaleStep a k q' :=
  min_le_min_right _ (Nat.div_le_div_right (Nat.mul_le_mul_right _ (Nat.add_le_add_left (Nat.mul_le_mul_left _ h) _)))

theorem fullScaleStep_1023 {a : Nat} (ha : a ≤ 64) (k : Nat) : fullScaleStep a k 1023 = fullScaleTop k := by
  rw [fullScaleStep, ← Nat.add_mul, Nat.add_sub_of_le ha, Nat.mul_assoc, Nat.mul_div_cancel_left _ (by decide)]
  rfl

theorem fullScaleStep_le_top {a : Nat} (ha : a ≤ 64) (k : Nat) (v : U16) :
    fullScaleStep a k (preShifted v) ≤ fullScaleTop k :=
  fullScaleStep_1023 ha k ▸ fullScaleStep_mono a k (preShifted_le v)

/-! ### The largest output and the first one -/

theorem preShifted_of_toNat_eq_top {k : Nat} (hk : k ≤ 10) {v : U16} (h : v.toNat = fullScaleTop k) :
    preShifted v = 1023 := by
  have hall : ∀ k < 11, preShifted (BitVec.ofNat 16 (fullScaleTop k)) = 1023 := by decide
  rw [← hall k (Nat.lt_succ_of_le hk), ← h, BitVec.ofNat_toNat, BitVec.setWidth_eq]

theorem preShiftAmount_le_of_le_top {k : Nat} {v : U16} (h : v.toNat ≤ fullScaleTop k) : preShiftAmount v ≤ k := by
  have hlt : v.toNat < 2 ^ (10 + k) := by
    calc v.toNat
      _ ≤ 1023 * 2 ^ k := h.trans (min_le_left ..)
      _ < 2 ^ 10 * 2 ^ k := Nat.mul_lt_mul_of_pos_right (by decide) (Nat.two_pow_pos k)
      _ = 2 ^ (10 + k) := (Nat.pow_add ..).symm
  rw [preShiftAmount_eq_sub, Nat.sub_le_iff_le_add']
  exact bitwidth16_le_iff.mpr hlt

theorem le_preShiftAmount {k : Nat} {v : U16} (h : 2 ^ (9 + k) ≤ v.toNat) : k ≤ preShiftAmount v := by
  have hsize : 9 + k < v.toNat.size := Nat.lt_size.mpr h
  rw [preShiftAmount_eq_size_sub]
  omega

theorem preShiftAmount_mono {v v' : U16} (h : v.toNat ≤ v'.toNat) : preShiftAmount v ≤ preShiftAmount v' := by
  rw [preShiftAmount_eq_size_sub, preShiftAmount_eq_size_sub]
  exact Nat.sub_le_sub_right (Nat.size_le_size h) 10

/-- R25 bounds the coefficient, so the first output either fills the pre-shift's 10 bits or is already pre-shifted by
as much as the largest one. -/
theorem first_output_cases {a k : Nat} (hk : k ≤ 10) (ha : 0 < k → 32 ≤ a) {v : U16}
    (hv : v.toNat = fullScaleStep a k 0) : preShifted v = 1023 ∨ k ≤ preShiftAmount v := by
  obtain rfl | hpos := k.eq_zero_or_pos
  case inl => exact .inr (Nat.zero_le _)
  case inr =>
    have hv' : v.toNat = min (a * 1023 * 2 ^ k / 64) 65535 := by rw [hv, fullScaleStep, Nat.mul_zero, Nat.add_zero]
    obtain rfl | hlt := (ha hpos).eq_or_lt
    case inl =>
      have hall : ∀ k < 11, 0 < k → preShifted (BitVec.ofNat 16 (fullScaleStep 32 k 0)) = 1023 := by decide
      refine .inl ?_
      rw [← hall k (Nat.lt_succ_of_le hk) hpos, ← hv, BitVec.ofNat_toNat, BitVec.setWidth_eq]
    case inr =>
      have hsum : 33 * 1023 * 2 ^ k ≤ a * 1023 * 2 ^ k := Nat.mul_le_mul_right _ (Nat.mul_le_mul_right _ hlt)
      by_cases hsat : k ≤ 6
      · refine .inr (le_preShiftAmount ?_)
        rw [hv']
        interval_cases k <;> omega
      · refine .inl (preShifted_of_toNat_eq_top hk ?_)
        rw [hv', fullScaleTop]
        interval_cases k <;> omega

/-! ### The orbit -/

theorem normHold_eq_iterate (alpha : BitVec 6) (ash : BitVec 4) (v : U16) (n : Nat) (last : U16) :
    normHold alpha ash v n last = (fun l => normStep .saturate alpha ash l v)^[n] last := by
  induction n generalizing last with
  | zero => rfl
  | succ n ih => rw [normHold, ih, Function.iterate_succ_apply]

/-- Samples of 0 leave the state 0. -/
theorem normHold_zero (alpha : BitVec 6) (ash : BitVec 4) (n : Nat) : normHold alpha ash 0 n 0 = 0 := by
  have hzero : normStep .saturate alpha ash 0 0 = 0 := by
    refine BitVec.eq_of_toNat_eq ?_
    rw [normStep_toNat, normAcc_eq, inputProduct, stateProduct, preShifted_zero]
    simp
  rw [normHold_eq_iterate]
  exact Function.iterate_fixed (f := fun l => normStep .saturate alpha ash l 0) hzero n

section Region

variable {f : U16 → U16} {a k : Nat} (hf : ∀ l, (f l).toNat = fullScaleStep a k (preShifted l))
include hf

/-- An orbit that stays, from its first output on, where the pre-shift is monotone never falls. -/
theorem iterate_le_succ_of_region {S : U16 → Prop} (first : S (f 0)) (closed : ∀ l, S l → S (f l))
    (mono : ∀ l l', S l → S l' → l.toNat ≤ l'.toNat → preShifted l ≤ preShifted l') (n : Nat) :
    (f^[n] 0).toNat ≤ (f^[n + 1] 0).toNat := by
  have hS (n : Nat) : S (f^[n + 1] 0) := by
    induction n with
    | zero => exact first
    | succ n ih => exact Function.iterate_succ_apply' f (n + 1) 0 ▸ closed _ ih
  induction n with
  | zero => exact Nat.zero_le _
  | succ n ih =>
    rw [Function.iterate_succ_apply' f n, Function.iterate_succ_apply' f (n + 1), hf, hf]
    refine fullScaleStep_mono a k ?_
    cases n with
    | zero => exact preShifted_zero.trans_le (Nat.zero_le _)
    | succ n => exact mono _ _ (hS n) (hS (n + 1)) ih

theorem iterate_le_succ (ha : a ≤ 64) (hk : k ≤ 10) (hlow : 0 < k → 32 ≤ a) (n : Nat) :
    (f^[n] 0).toNat ≤ (f^[n + 1] 0).toNat := by
  have hfirst : (f 0).toNat = fullScaleStep a k 0 := by rw [hf, preShifted_zero]
  obtain hfull | hwide := first_output_cases hk hlow hfirst
  case inl =>
    refine iterate_le_succ_of_region hf (S := fun l => preShifted l = 1023) hfull (fun l hl => ?_)
      (fun l l' hl hl' _ => (hl.trans hl'.symm).le) n
    exact preShifted_of_toNat_eq_top hk (by rw [hf, hl, fullScaleStep_1023 ha])
  case inr =>
    have hregion (l : U16) : preShiftAmount (f l) = k := by
      have hge : (f 0).toNat ≤ (f l).toNat := by
        rw [hfirst, hf]
        exact fullScaleStep_mono a k (Nat.zero_le _)
      have hle : (f l).toNat ≤ fullScaleTop k := (hf l).trans_le (fullScaleStep_le_top ha k l)
      exact le_antisymm (preShiftAmount_le_of_le_top hle) (hwide.trans (preShiftAmount_mono hge))
    refine iterate_le_succ_of_region hf (S := fun l => preShiftAmount l = k) (hregion 0) (fun l _ => hregion l)
      (fun l l' hl hl' hle => ?_) n
    rw [preShifted_eq_div, preShifted_eq_div, hl, hl']
    exact Nat.div_le_div_right hle

end Region

/-- Once two outputs are equal, all later ones are. -/
theorem iterate_eq_of_succ_eq {f : U16 → U16} {x : U16} {n : Nat} (h : f^[n + 1] x = f^[n] x) {m : Nat} (hm : n ≤ m) :
    f^[m] x = f^[n] x := by
  obtain ⟨j, rfl⟩ := Nat.exists_eq_add_of_le' hm
  rw [Function.iterate_succ_apply'] at h
  rw [Function.iterate_add_apply, Function.iterate_fixed h]

/-- Settles O39: the orbit never falls, and an output equal to the one before it is a fixed point. -/
theorem nlpfStepProperty : Obligations.NlpfStepProperty := by
  intro raw c y
  have hy (n : Nat) : y n = (fun l => normStep .saturate c.alpha c.ash l 1023)^[n] 0 := by
    rw [← normHold_eq_iterate, ← normHold_zero c.alpha c.ash 5]
  refine ⟨fun n => ?_, fun hraw n => ?_⟩
  · have hle := iterate_le_succ (normStep_1023_toNat c.alpha c.ash) c.alpha.isLt.le (coeffNorm_ash_le raw)
      le_coeffNorm_alpha_of_ash_pos n
    obtain heq | hlt := hle.eq_or_lt
    · refine .inr fun m hm => ?_
      rw [hy, hy]
      exact iterate_eq_of_succ_eq (BitVec.eq_of_toNat_eq heq.symm) hm
    · exact .inl (by rwa [BitVec.lt_def, hy, hy])
  · have hfixed : normStep .saturate c.alpha c.ash 0 1023 = 0 := by
      rw [show c = coeffNorm 0 from congrArg coeffNorm hraw]
      decide
    rw [hy]
    exact Function.iterate_fixed (f := fun l => normStep .saturate c.alpha c.ash l 1023) hfixed n

end Sys2Proof.Machine

/-! # One command at a time (10_state.md R17, 20_memory.md R38, 92_eei_decisions.md D15)

The idea: `exec_of_not_process` and the write functions of the units say what INIT, SETC and RESET leave, so idempotence
and the comparison of SETC with INIT are facts about one unit's registers. -/

namespace Sys2Proof.Machine

theorem exec_eq_runWord_encode (i : Instr) (s : State) : exec i s = runWord (encode i) s :=
  (runWord_ok (decode_encode i) s).symm

/-- Settles O43: a command is confined to its unit, and writes neither the list of commands nor the host's side. -/
theorem otherUnitsUnchanged : Obligations.OtherUnitsUnchanged := by
  intro i s
  obtain ⟨t, hexec, hframe⟩ := (exec_confinedTo i).exists_next s
  have hrun : runWord (encode i) s = .next t := exec_eq_runWord_encode i s ▸ hexec
  obtain ⟨hin, hdel, hiss, hres⟩ := runWord_sameHostSide hrun
  exact ⟨t, hexec, hframe, runWord_accepted hrun, hin, hdel, hiss, hres⟩

theorem LowPassRegs.apply_apply {o : Op} (h : o ≠ .process) (d : U16) (u : LowPassRegs) :
    (u.apply o d).apply o d = u.apply o d := by
  cases o with
  | process => exact absurd rfl h
  | init | setc | reset => rfl

theorem NormRegs.apply_apply {o : Op} (h : o ≠ .process) (d : U16) (u : NormRegs) :
    (u.apply o d).apply o d = u.apply o d := by
  cases o with
  | process => exact absurd rfl h
  | init | setc | reset => rfl

theorem State.write_write_sameRegs {o : Op} (h : o ≠ .process) (u : UnitId) (d : U16) (r : Word32) (s : State) :
    (s.write u o d).SameRegs (((s.write u o d).pushResponse r).write u o d) := by
  cases u <;> simp [State.SameRegs, State.write, LowPassRegs.apply_apply h, NormRegs.apply_apply h]

/-- Settles O46: what a configuration command writes is determined by its operand and the fields it keeps. -/
theorem configurationCommandsIdempotent : Obligations.ConfigurationCommandsIdempotent := fun i s hop =>
  ⟨_, _, exec_of_not_process hop s, exec_of_not_process hop _, State.write_write_sameRegs hop i.unit i.data _ s⟩

theorem LowPassRegs.apply_setc_eq_init {u : LowPassRegs} (h : u.last = 0) (raw : U16) :
    u.apply .setc raw = u.apply .init raw := by
  rw [LowPassRegs.apply_setc, LowPassRegs.apply_init, h]

theorem NormRegs.apply_setc_eq_init {u : NormRegs} (h : u.last = 0) (raw : U16) :
    u.apply .setc raw = u.apply .init raw := by
  rw [NormRegs.apply_setc, NormRegs.apply_init, h]

/-- Settles O47: the state that INIT clears is 0 already (R32). -/
theorem setcOnUnconfiguredIsInit : Obligations.SetcOnUnconfiguredIsInit := by
  rintro u raw s ⟨⟨-, hlpf⟩, ⟨-, hhpf⟩, -, hnlpf⟩ hcfg
  cases u with
  | lpf => exact congrArg (fun l => (s.setLpf l).respond 0) (LowPassRegs.apply_setc_eq_init (hlpf hcfg) raw)
  | hpf => exact congrArg (fun l => (s.setHpf l).respond 0) (LowPassRegs.apply_setc_eq_init (hhpf hcfg) raw)
  | nlpf => exact congrArg (fun l => (s.setNlpf l).respond 0) (NormRegs.apply_setc_eq_init (hnlpf hcfg) raw)

end Sys2Proof.Machine

/-! # The command and the handshakes of a step (30_encoding.md R45, R46)

The idea: a step without reset moves one word from the accepted list to a response at the end of the pending ones, and
then the handshakes move one pending response out and one word in. Each of the two moves is said once, and so is what it
does to the number of commands held and to the record of issued commands. -/

namespace Sys2Proof.Machine

/-! ### The performed command -/

/-- Everything `performNext` can do to what is in flight. -/
theorem performNext_next_cases {s t : State} (h : performNext s = .next t) :
    (s.accepted = [] ∧ t = s) ∨
    ∃ w ws r, s.accepted = w :: ws ∧ runWord w { s with accepted := ws } = .next t ∧ t.accepted = ws ∧
      t.responses = s.responses ++ [r] := by
  cases ha : s.accepted with
  | nil =>
    rw [performNext_nil ha] at h
    cases h
    exact .inl ⟨rfl, rfl⟩
  | cons w ws =>
    rw [performNext_cons ha] at h
    obtain ⟨t', r, ht', hrsp, -⟩ := runWord_response w { s with accepted := ws }
    cases ht'.symm.trans h
    exact .inr ⟨w, ws, r, rfl, h, runWord_accepted h, hrsp⟩

theorem performNext_sameHostSide {s t : State} (h : performNext s = .next t) : s.SameHostSide t := by
  obtain ⟨-, rfl⟩ | ⟨w, ws, r, -, hrun, -⟩ := performNext_next_cases h
  · exact .refl t
  · have hpop : s.SameHostSide { s with accepted := ws } := ⟨rfl, rfl, rfl, rfl⟩
    exact hpop.trans (runWord_sameHostSide hrun)

theorem performNext_held {s t : State} (h : performNext s = .next t) : t.held = s.held := by
  obtain ⟨-, rfl⟩ | ⟨w, ws, r, hacc, -, hacc', hrsp⟩ := performNext_next_cases h
  · rfl
  · simp only [State.held, hacc, hacc', hrsp, List.length_cons, List.length_append, List.length_nil]
    omega

theorem performNext_responses {s t : State} (h : performNext s = .next t) : s.responses <+: t.responses := by
  obtain ⟨-, rfl⟩ | ⟨w, ws, r, -, -, -, hrsp⟩ := performNext_next_cases h
  · exact List.prefix_rfl
  · exact ⟨[r], hrsp.symm⟩

/-! ### The handshakes -/

theorem State.taken_eq {p : PortIn} (hrst : p.rst = false) (s : State) :
    s.taken p = if p.cmdValid = true ∧ s.held < Config.DEPTH then [p.cmdWord] else [] := by
  simp [State.taken, State.portOut, hrst]

theorem State.taken_cases (p : PortIn) (s : State) :
    s.taken p = [] ∨ s.held < Config.DEPTH ∧ s.taken p = [p.cmdWord] := by
  by_cases h : (p.cmdValid && (s.portOut p).cmdReady) = true
  · have hready : (s.portOut p).cmdReady = true := (Bool.and_eq_true_iff.mp h).2
    exact .inr ⟨of_decide_eq_true (Bool.and_eq_true_iff.mp hready).2, if_pos h⟩
  · exact .inl (if_neg h)

/-- With `rsp_ready` 1, the oldest response is delivered if there is one. -/
theorem State.transfer_of_take {p : PortIn} (hrst : p.rst = false) (htake : p.rspReady = true) (s : State) :
    s.transfer p = if p.cmdValid && (s.portOut p).cmdReady then s.deliver.accept p.cmdWord else s.deliver := by
  have hdeliver : (if p.rspReady && (s.portOut p).rspValid then s.deliver else s) = s.deliver := by
    cases hs : s.responses with
    | nil => rw [deliver_nil hs, ite_self]
    | cons r rs => simp [State.portOut, htake, hrst, hs]
  simp only [State.transfer, hdeliver]

theorem State.transfer_of_no_take {p : PortIn} (htake : p.rspReady = false) (s : State) :
    s.transfer p = if p.cmdValid && (s.portOut p).cmdReady then s.accept p.cmdWord else s := by
  simp [State.transfer, htake]

theorem State.transfer_responses_of_take {p : PortIn} (hrst : p.rst = false) (htake : p.rspReady = true) (s : State) :
    (s.transfer p).responses = s.responses.tail ∧
      (s.transfer p).delivered = s.delivered ++ s.responses.head?.toList := by
  rw [State.transfer_of_take hrst htake]
  split <;> simp

theorem State.transfer_responses_of_no_take {p : PortIn} (htake : p.rspReady = false) (s : State) :
    (s.transfer p).responses = s.responses ∧ (s.transfer p).delivered = s.delivered := by
  rw [State.transfer_of_no_take htake]
  split <;> simp

theorem State.transfer_responses_suffix (p : PortIn) (s : State) : (s.transfer p).responses <:+ s.responses := by
  obtain h | h | h | h := transfer_cases p s <;> simp [h, List.tail_suffix]

/-! ### The obligations on a single cycle -/

/-- Settles O53: each output is one field of `portOut`. -/
theorem outputPorts : Obligations.OutputPorts := by
  refine fun p s => ⟨rfl, fun hrst => ?_, fun hfull => ?_, fun hrst => ⟨?_, fun r rs hs => ?_⟩⟩
  · simp [State.portOut, hrst]
  · simp [State.portOut, Nat.not_lt.mpr hfull]
  · simp [State.portOut, hrst]
  · simp [State.portOut, hrst, hs]

/-- Settles O50: the performed command is `exec`, and the handshakes follow. -/
theorem stepRunsDecodedCommand : Obligations.StepRunsDecodedCommand := by
  intro s w ws i hacc hd
  refine ⟨fun hin => ?_, fun p rest hin hrst => ?_⟩
  · rw [step_nil hin, performNext_cons hacc, runWord_ok hd]
  · have hperf : performNext { s with inputs := rest } = exec i { s with accepted := ws, inputs := rest } :=
      (performNext_cons (s := { s with inputs := rest }) hacc).trans (runWord_ok hd _)
    obtain ⟨t, ht⟩ := performNext_total { s with inputs := rest }
    exact ⟨t, hperf ▸ ht, (step_cons hin).trans ((portCycle_next_iff hrst _ _).mpr ⟨t, ht, rfl⟩)⟩

/-- Settles O51: with idle ports a step is `performNext`. -/
theorem stepWithoutALegalCommand : Obligations.StepWithoutALegalCommand := by
  refine fun s hin => ⟨fun hacc => ?_, fun w ws e hacc hd => ?_⟩
  · rw [step_nil hin, performNext_nil hacc]
  · rw [step_nil hin, performNext_cons hacc, runWord_of_decode_error hd]

/-- Settles O54: the command performed before the handshakes changes neither the number of commands held nor what the
host drives. -/
theorem portCycleHandshakes : Obligations.PortCycleHandshakes := by
  intro s m p rest hin hrst hperf
  have hheld : m.held = s.held := performNext_held (s := { s with inputs := rest }) hperf
  have hrest : m.inputs = rest := (performNext_sameHostSide hperf).inputs
  refine ⟨m.transfer p, (step_cons hin).trans ((portCycle_next_iff hrst _ _).mpr ⟨m, hperf, rfl⟩),
    m.transfer_sameRegs p, (m.transfer_inputs p).trans hrest, ?_, m.transfer_responses_of_take hrst,
    m.transfer_responses_of_no_take⟩
  rw [State.transfer_accepted, State.taken_eq hrst, hheld]

/-- Settles O55: a command's response goes behind the pending ones, and only a delivery takes from their front. -/
theorem offeredResponseIsStable : Obligations.OfferedResponseIsStable := by
  intro s r rs hs hhost
  have head_kept {m : State} (hprefix : s.responses <+: m.responses) : m.responses.head? = some r := by
    obtain ⟨new, hnew⟩ := hprefix
    simp [← hnew, hs]
  obtain ⟨t, hstep⟩ := everyStepGoesOn s
  refine ⟨t, hstep, ?_⟩
  obtain ⟨-, hperf⟩ | ⟨p, ps, m, hin, hperf, rfl⟩ :=
    step_next_cases_of_no_rst (fun p rest hin => (hhost p rest hin).1) hstep
  · exact head_kept (performNext_responses hperf)
  · obtain ⟨hrsp, -⟩ := m.transfer_responses_of_no_take (hhost p ps hin).2
    rw [hrsp]
    exact head_kept (performNext_responses (s := { s with inputs := ps }) hperf)

end Sys2Proof.Machine

/-! # At most DEPTH commands are held, and the record matches (30_encoding.md R46)

The idea: performing a command moves it from one list to the other, a delivery lets one go and an acceptance needs room.
The record of issued commands follows: what is in flight is a queue, to which an acceptance adds at the end and from
which an answer takes at the front. -/

namespace Sys2Proof.Machine

/-! ### The number of commands held -/

theorem State.WithinDepth.transfer {s : State} (h : s.WithinDepth) (p : PortIn) : (s.transfer p).WithinDepth := by
  have hrsp := (s.transfer_responses_suffix p).length_le
  obtain htaken | ⟨hroom, htaken⟩ := s.taken_cases p <;>
    simp only [State.WithinDepth, State.held, State.transfer_accepted, htaken, List.length_append, List.length_cons,
      List.length_nil] at * <;>
    omega

/-! ### The queue of commands in flight -/

theorem State.inFlight_accept (w : Word32) (s : State) : (s.accept w).inFlight = s.inFlight ++ [w] := by
  simp [State.inFlight]

/-- The words in flight in a record, the oldest first. -/
def inFlightWords (l : List Issued) : List Word32 := (l.filter (·.fate = .inFlight)).map (·.word)

theorem inFlightWords_answerOldest (r : Word32) (l : List Issued) :
    inFlightWords (answerOldest r l) = (inFlightWords l).tail := by
  induction l with
  | nil => rfl
  | cons e es ih =>
    by_cases he : e.fate = .inFlight
    · simp [inFlightWords, answerOldest, he]
    · simpa [inFlightWords, answerOldest, he] using ih

theorem inFlightWords_discard (l : List Issued) : inFlightWords (l.map Issued.discard) = [] := by
  have hgone (e : Issued) : e.discard.fate ≠ .inFlight := by
    unfold Issued.discard
    split
    · exact nofun
    · assumption
  simp [inFlightWords, hgone]

theorem State.inFlight_deliver {s : State} {r : Word32} {rs : List Word32} (h : s.responses = r :: rs) :
    s.deliver.inFlight = s.inFlight.tail := by
  rw [deliver_cons h]
  exact inFlightWords_answerOldest r s.issued

/-! ### The record matches -/

theorem State.RecordMatches.performNext {s t : State} (h : s.RecordMatches) (hperf : performNext s = .next t) :
    t.RecordMatches := by
  obtain ⟨hlen, hdrop⟩ := h
  have hsame : t.inFlight = s.inFlight := congrArg inFlightWords (performNext_sameHostSide hperf).issued
  refine ⟨by rw [hsame, hlen, performNext_held hperf], ?_⟩
  rw [hsame]
  obtain ⟨-, rfl⟩ | ⟨w, ws, r, hacc, -, hacc', hrsp⟩ := performNext_next_cases hperf
  · exact hdrop
  · rw [hrsp, List.length_append, ← List.drop_drop, hdrop, hacc, hacc']
    rfl

theorem State.RecordMatches.deliver {s : State} (h : s.RecordMatches) : s.deliver.RecordMatches := by
  cases hs : s.responses with
  | nil => rwa [deliver_nil hs]
  | cons r rs =>
    obtain ⟨hlen, hdrop⟩ := h
    simp only [State.RecordMatches, State.inFlight_deliver hs, State.held, State.deliver_accepted,
      State.deliver_responses, hs, List.tail_cons, List.length_tail, List.drop_tail] at *
    exact ⟨by rw [hlen, List.length_cons]; omega, hdrop⟩

theorem State.RecordMatches.accept {s : State} (h : s.RecordMatches) (w : Word32) : (s.accept w).RecordMatches := by
  obtain ⟨hlen, hdrop⟩ := h
  have hle : s.responses.length ≤ s.inFlight.length := hlen ▸ Nat.le_add_left ..
  refine ⟨?_, ?_⟩
  · simp only [State.inFlight_accept, State.held, State.accept_accepted, State.accept_responses, List.length_append,
      hlen]
    omega
  · rw [State.inFlight_accept, State.accept_responses, List.drop_append_of_le_length hle, hdrop, State.accept_accepted]

theorem State.RecordMatches.transfer {s : State} (h : s.RecordMatches) (p : PortIn) : (s.transfer p).RecordMatches := by
  obtain ht | ht | ht | ht := transfer_cases p s <;> rw [ht]
  · exact h
  · exact h.deliver
  · exact h.accept p.cmdWord
  · exact h.deliver.accept p.cmdWord

theorem State.hwReset_recordMatches (s : State) : s.hwReset.RecordMatches := by
  have hnone : s.hwReset.inFlight = [] := inFlightWords_discard s.issued
  simp [State.RecordMatches, State.held, hnone]

/-- Settles O56: both are kept by every part of a step, and a reset leaves nothing held and nothing in flight. -/
theorem stepKeepsWithinDepth : Obligations.StepKeepsWithinDepth := by
  refine fun s t hstep => ⟨fun h => ?depth, fun h => ?record⟩
  case depth =>
    refine step_keeps (P := State.WithinDepth) (fun _ _ h => h) (fun s t h hperf => ?_) (fun p _ h => h.transfer p)
      (fun _ _ => Nat.zero_le _) h hstep
    rwa [State.WithinDepth, performNext_held hperf]
  case record =>
    exact step_keeps (P := State.RecordMatches) (fun _ _ h => h) (fun _ _ h hperf => h.performNext hperf)
      (fun p _ h => h.transfer p) (fun s _ => s.hwReset_recordMatches) h hstep

/-- Settles O40: no unit is configured and every list is empty. -/
theorem resetMeetsTheInvariants : Obligations.ResetMeetsTheInvariants :=
  ⟨⟨LowPassRegs.afterReset_coherent, LowPassRegs.afterReset_coherent, NormRegs.afterReset_coherent⟩,
    Nat.zero_le _, fun _ h => absurd h List.not_mem_nil, rfl, rfl⟩

end Sys2Proof.Machine

/-! # Responses and errors (30_encoding.md R52 to R54, 60_exceptions.md R97, R99)

The idea: `runWord_cases` gives the response a word appends and the sticky bits it sets, in each of the three outcomes;
sticky bits only grow, and handshakes only move responses. -/

namespace Sys2Proof.Machine

/-! ### The form of a response -/

theorem rspUpperClear_rspWord (st : Status) (v : U16) : rspUpperClear (rspWord st v) = true := by
  unfold rspUpperClear rspWord
  rw [BitVec.extractLsb'_append_eq_of_le (by decide), BitVec.extractLsb'_append_eq_of_le (by decide)]
  rfl

theorem rspLegal_rspWord {st : Status} {v : U16} (h : st ≠ .ok → v = 0) : rspLegal (rspWord st v) := by
  refine ⟨rspUpperClear_rspWord st v, ?_, fun hne => ?_⟩
  · rw [rspStatus_rspWord]
    cases st <;> decide
  · rw [rspStatus_rspWord] at hne
    rw [rspResult_rspWord]
    exact h fun hok => hne (hok ▸ rfl)

/-- R26 for one response and the sticky bits `e`. -/
def RecordedIn (e : BitVec 2) (r : Word32) : Prop :=
  (rspStatus r = 0b01 → e.getLsbD 0 = true) ∧ (rspStatus r = 0b10 → e.getLsbD 1 = true)

theorem getLsbD_of_and_eq_left {e e' : BitVec 2} (h : e &&& e' = e) {j : Nat} (hj : e.getLsbD j = true) :
    e'.getLsbD j = true := by
  rw [← h, BitVec.getLsbD_and, Bool.and_eq_true] at hj
  exact hj.2

theorem RecordedIn.mono {e e' : BitVec 2} {r : Word32} (h : RecordedIn e r) (hle : e &&& e' = e) : RecordedIn e' r := by
  obtain ⟨hill, huncfg⟩ := h
  exact ⟨fun hr => getLsbD_of_and_eq_left hle (hill hr), fun hr => getLsbD_of_and_eq_left hle (huncfg hr)⟩

theorem recordedIn_rspWord_ok (e : BitVec 2) (v : U16) : RecordedIn e (rspWord .ok v) := by
  rw [RecordedIn, rspStatus_rspWord]
  exact ⟨nofun, nofun⟩

theorem recordedIn_or_stickyBit (e : BitVec 2) (c : ErrorCause) : RecordedIn (e ||| c.stickyBit) c.rspWord := by
  rw [RecordedIn, ErrorCause.rspWord, rspStatus_rspWord]
  cases c with
  | illegalCommand => exact ⟨fun _ => by simp [ErrorCause.stickyBit], nofun⟩
  | notConfigured => exact ⟨nofun, fun _ => by simp [ErrorCause.stickyBit]⟩

/-- What a word appends is legal and recorded. -/
theorem runWord_response_legal {w : Word32} {s t : State} (h : runWord w s = .next t) :
    ∃ r, t.responses = s.responses ++ [r] ∧ rspLegal r ∧ RecordedIn t.errSticky r := by
  have raised (c : ErrorCause) (hraise : runWord w s = s.raise c) :
      ∃ r, t.responses = s.responses ++ [r] ∧ rspLegal r ∧ RecordedIn t.errSticky r := by
    cases hraise.symm.trans h
    exact ⟨c.rspWord, rfl, rspLegal_rspWord fun _ => rfl, recordedIn_or_stickyBit s.errSticky c⟩
  obtain ⟨e, -, hraise⟩ | ⟨i, -, -, -, hraise⟩ | ⟨i, t', v, -, -, hrun, hrsp, -⟩ := runWord_cases w s
  · exact raised _ hraise
  · exact raised _ hraise
  · cases hrun.symm.trans h
    exact ⟨_, hrsp, rspLegal_rspWord fun hne => absurd rfl hne, recordedIn_rspWord_ok _ v⟩

/-! ### Pending responses along a step -/

/-- The premise of O57's invariant, on each pending response. -/
def State.PendingSound (s : State) : Prop := ∀ r ∈ s.responses, rspLegal r ∧ RecordedIn s.errSticky r

theorem State.pendingSound_iff (s : State) : s.PendingSound ↔ (∀ r ∈ s.responses, rspLegal r) ∧ s.ErrorsRecorded :=
  forall₂_and

theorem State.PendingSound.performNext {s t : State} (h : s.PendingSound) (hperf : performNext s = .next t) :
    t.PendingSound := by
  have hsticky := performNext_keeps_sticky hperf
  obtain ⟨-, rfl⟩ | ⟨w, ws, -, -, hrun, -⟩ := performNext_next_cases hperf
  · exact h
  · obtain ⟨r, hrsp, hnew⟩ := runWord_response_legal hrun
    rw [State.PendingSound, hrsp]
    refine List.forall_mem_append.mpr ⟨fun q hq => ?_, List.forall_mem_singleton.mpr hnew⟩
    obtain ⟨hlegal, hrec⟩ := h q hq
    exact ⟨hlegal, hrec.mono hsticky⟩

theorem State.PendingSound.transfer {s : State} (h : s.PendingSound) (p : PortIn) : (s.transfer p).PendingSound := by
  rw [State.PendingSound, State.transfer_errSticky]
  exact fun r hr => h r ((s.transfer_responses_suffix p).subset hr)

/-- Settles O57: a new response is legal and recorded, an old one stays recorded, and the handshakes add none. -/
theorem stepKeepsResponsesLegal : Obligations.StepKeepsResponsesLegal := by
  intro s t hlegal hrec hstep
  refine t.pendingSound_iff.mp (step_keeps (P := State.PendingSound) (fun _ _ h => h)
    (fun _ _ h hperf => h.performNext hperf) (fun p _ h => h.transfer p) (fun _ _ _ h => absurd h List.not_mem_nil)
    (s.pendingSound_iff.mpr ⟨hlegal, hrec⟩) hstep)

/-! ### Runs without an error -/

theorem State.errorFree_iff (s : State) :
    s.ErrorFree ↔ s.errSticky = 0b00 ∧ ∀ r ∈ s.delivered ++ s.responses, rspStatus r = 0b00 := by
  simp only [State.ErrorFree, List.mem_append, or_comm]

theorem State.ErrorFree.transfer {s : State} (h : s.ErrorFree) (p : PortIn) : (s.transfer p).ErrorFree := by
  rw [State.errorFree_iff] at *
  rwa [State.transfer_errSticky, State.transfer_answers]

theorem State.ErrorFree.exec {i : Instr} {s t : State} (h : s.ErrorFree) (hready : s.Ready i)
    (hexec : exec i s = .next t) : t.ErrorFree := by
  have hdelivered : t.delivered = s.delivered := (exec_sameHostSide_of_ready hready hexec).delivered
  have hsticky : t.errSticky = s.errSticky := exec_errSticky_of_ready hready hexec
  obtain ⟨t', v, hexec', hrsp, -⟩ := exec_ok_of_ready hready
  cases hexec'.symm.trans hexec
  rw [State.errorFree_iff] at *
  rw [hsticky, hdelivered, hrsp, ← List.append_assoc]
  obtain ⟨hclear, hall⟩ := h
  exact ⟨hclear, List.forall_mem_append.mpr ⟨hall, List.forall_mem_singleton.mpr (rspStatus_rspWord .ok v)⟩⟩

/-- Settles O49: the performed command answers OK and sets no sticky bit. -/
theorem readyCommandsKeepRunErrorFree : Obligations.ReadyCommandsKeepRunErrorFree := by
  intro s w ws i hfree hacc hd hready hrst
  have performed {m : State} {ps : List PortIn} (hperf : performNext { s with inputs := ps } = .next m) :
      m.ErrorFree := by
    rw [performNext_cons (s := { s with inputs := ps }) hacc, runWord_ok hd] at hperf
    exact State.ErrorFree.exec (s := { s with accepted := ws, inputs := ps }) hfree hready hperf
  obtain ⟨t, hstep⟩ := everyStepGoesOn s
  refine ⟨t, hstep, ?_⟩
  obtain ⟨-, hperf⟩ | ⟨p, ps, m, -, hperf, rfl⟩ := step_next_cases_of_no_rst hrst hstep
  · exact performed hperf
  · exact (performed hperf).transfer p

end Sys2Proof.Machine

/-! # A host that takes responses drains everything (70_reset_and_hazards.md R119)

The idea: a cycle in which the host only takes performs one command and delivers one response, so it lowers the number
of commands held; the whole sequence of responses only grows, by one for each command that leaves the list. -/

namespace Sys2Proof.Machine

theorem performNext_answers {s t : State} (h : performNext s = .next t) : ∃ new,
    t.delivered ++ t.responses = s.delivered ++ s.responses ++ new ∧
    new.length + t.accepted.length = s.accepted.length ∧ (t.responses = [] → t.accepted = []) := by
  have hdelivered := (performNext_sameHostSide h).delivered
  obtain ⟨hacc, rfl⟩ | ⟨w, ws, r, hacc, -, hacc', hrsp⟩ := performNext_next_cases h
  · exact ⟨[], by simp, by simp, fun _ => hacc⟩
  · refine ⟨[r], by rw [hdelivered, hrsp, List.append_assoc], ?_, fun hnil => ?_⟩
    · rw [hacc, hacc', Nat.add_comm]
      rfl
    · simp [hrsp] at hnil

/-- One cycle of a host that only takes responses. -/
theorem step_of_take {s : State} {ps : List PortIn} (hin : s.inputs = PortIn.take :: ps) : ∃ t new,
    step s = .next t ∧ t.inputs = ps ∧ t.held ≤ s.held - 1 ∧
    t.delivered ++ t.responses = s.delivered ++ s.responses ++ new ∧
    new.length + t.accepted.length = s.accepted.length := by
  obtain ⟨m, hperf⟩ := performNext_total { s with inputs := ps }
  obtain ⟨new, hanswers, hlen, hempty⟩ := performNext_answers hperf
  have hacc : (m.transfer PortIn.take).accepted = m.accepted :=
    (m.transfer_accepted PortIn.take).trans (List.append_nil _)
  obtain ⟨hrsp, -⟩ := m.transfer_responses_of_take (p := PortIn.take) rfl rfl
  refine ⟨m.transfer PortIn.take, new, (step_cons hin).trans ((portCycle_next_iff rfl _ _).mpr ⟨m, hperf, rfl⟩),
    (m.transfer_inputs _).trans (performNext_sameHostSide hperf).inputs, ?_, (m.transfer_answers _).trans hanswers,
    hacc ▸ hlen⟩
  have hheld : m.held = s.held := performNext_held (s := { s with inputs := ps }) hperf
  rw [← hheld, State.held, hacc, hrsp, List.length_tail, State.held]
  cases hm : m.responses with
  | nil => simp [hempty hm]
  | cons r rs => simp

/-- Settles O60, by induction on the cycles. -/
theorem takingHostDrainsEverything : Obligations.TakingHostDrainsEverything := by
  intro n
  induction n with
  | zero =>
    intro s hin hheld
    have hacc : s.accepted = [] := List.length_eq_zero_iff.mp (by simp only [State.held] at hheld; omega)
    have hrsp : s.responses = [] := List.length_eq_zero_iff.mp (by simp only [State.held] at hheld; omega)
    exact ⟨s, rfl, hin, hacc, hrsp, [], by simp [hrsp], by simp [hacc]⟩
  | succ n ih =>
    intro s hin hheld
    obtain ⟨t, new, hstep, hin', hheld', hanswers, hlen⟩ := step_of_take (ps := List.replicate n PortIn.take) hin
    obtain ⟨u, hrun, hinputs, hacc, hrsp, new', hdel, hlen'⟩ := ih t hin' (by omega)
    refine ⟨u, (run_succ n hstep).trans hrun, hinputs, hacc, hrsp, new ++ new', ?_, ?_⟩
    · rw [hdel, hanswers, List.append_assoc]
    · rw [List.length_append, hlen', hlen]

end Sys2Proof.Machine

/-! # A hosted run is sequential (20_memory.md R40, 70_reset_and_hazards.md R120)

The idea, for a host that waits for each response: two steps perform one command on a machine with nothing in flight and
leave it so, with one more answered entry in the record. An answered entry is never written again, so everything R120
asks of the program, which is read off its entries, stands for good.

The idea, for any host: along a run, what the commands of the current era come to from the state the era started in is
what the accepted commands come to from the current state. -/

namespace Sys2Proof.Machine

/-! ### One command of a host that waits for its response -/

/-- Nothing is accepted, pending or recorded as in flight. -/
structure State.Quiescent (s : State) : Prop where
  accepted : s.accepted = []
  responses : s.responses = []
  settled : ∀ e ∈ s.issued, e.fate ≠ .inFlight

theorem State.RecordMatches.quiescent {s : State} (h : s.RecordMatches) (hacc : s.accepted = [])
    (hrsp : s.responses = []) : s.Quiescent := by
  obtain ⟨hlen, -⟩ := h
  refine ⟨hacc, hrsp, ?_⟩
  simpa [State.inFlight, State.held, hacc, hrsp] using hlen

theorem depth_pos : 0 < Config.DEPTH := Nat.succ_pos _

theorem step_of_offer {s : State} (hq : s.Quiescent) {w : Word32} {ps : List PortIn}
    (hin : s.inputs = PortIn.offer w :: ps) : step s = .next (State.accept w { s with inputs := ps }) := by
  have hready : (({ s with inputs := ps } : State).portOut (.offer w)).cmdReady = true := by
    simp [State.portOut, State.held, hq.accepted, hq.responses, depth_pos, PortIn.offer, PortIn.idle]
  refine (step_cons hin).trans ((portCycle_next_iff rfl _ _).mpr ⟨_, performNext_nil hq.accepted, ?_⟩)
  rw [State.transfer_of_no_take rfl, hready]
  rfl

/-- An answer goes past entries that are not in flight. -/
theorem answerOldest_append {l : List Issued} (h : ∀ e ∈ l, e.fate ≠ .inFlight) (r : Word32) (l' : List Issued) :
    answerOldest r (l ++ l') = l ++ answerOldest r l' := by
  induction l with
  | nil => rfl
  | cons e es ih =>
    obtain ⟨he, hes⟩ := List.forall_mem_cons.mp h
    rw [List.cons_append, answerOldest, if_neg he, ih hes, List.cons_append]

/-- A step that performs the only accepted command and delivers its response, beside a state `u` with the same registers
on which that command is performed alone. -/
theorem step_of_take_single {u s m : State} (h : u.SameRegs s) {w : Word32} {ps : List PortIn}
    (hin : s.inputs = PortIn.take :: ps) (hacc : s.accepted = [w]) (hrsp : s.responses = [])
    (hrun : runWord w u = .next m) : ∃ t r, step s = .next t ∧ m.responses = u.responses ++ [r] ∧ m.SameRegs t ∧
      t.accepted = [] ∧ t.responses = [] ∧ t.inputs = ps ∧ t.delivered = s.delivered ++ [r] ∧
      t.issued = answerOldest r s.issued ∧ t.resets = s.resets := by
  obtain ⟨n, hperf⟩ := performNext_total { s with inputs := ps }
  have hrun' : runWord w { s with inputs := ps, accepted := [] } = .next n :=
    (performNext_cons (s := { s with inputs := ps }) hacc).symm.trans hperf
  have hbefore : u.SameRegs { s with inputs := ps, accepted := [] } := h
  obtain ⟨hregs, r, hm, hn⟩ := hbefore.runWord hrun hrun'
  obtain ⟨hinputs, hdel, hiss, hres⟩ := runWord_sameHostSide hrun'
  have htransfer : n.transfer PortIn.take = n.deliver :=
    (State.transfer_of_take rfl rfl n).trans (if_neg Bool.false_ne_true)
  have hdeliver := deliver_cons (s := n) (r := r) (rs := []) (by simp [hn, hrsp])
  refine ⟨n.deliver, r, (step_cons hin).trans ((portCycle_next_iff rfl _ _).mpr ⟨n, hperf, htransfer.symm⟩), hm,
    htransfer ▸ hregs.trans (n.transfer_sameRegs PortIn.take), ?_⟩
  rw [hdeliver, hdel, hiss]
  exact ⟨runWord_accepted hrun', rfl, hinputs, rfl, rfl, hres⟩

/-- From `s` to `t`, the command `w` was issued and answered `r`, and nothing is left in flight. -/
structure State.AnsweredTo (s : State) (w r : Word32) (t : State) : Prop where
  quiescent : t.Quiescent
  delivered : t.delivered = s.delivered ++ [r]
  issued : t.issued = s.issued ++ [{ word := w, fate := .answered r, resets := s.resets }]
  resets : t.resets = s.resets

theorem hosted_command {s : State} (hq : s.Quiescent) {w : Word32} {ps : List PortIn}
    (hin : s.inputs = PortIn.offer w :: PortIn.take :: ps) : ∃ s₁ t m r,
    step s = .next s₁ ∧ step s₁ = .next t ∧ t.inputs = ps ∧ runWord w s = .next m ∧ m.responses = [r] ∧
    m.SameRegs t ∧ s.AnsweredTo w r t := by
  obtain ⟨m, hm⟩ := runWord_total w s
  have hsame : s.SameRegs (State.accept w { s with inputs := PortIn.take :: ps }) := .refl s
  obtain ⟨t, r, htake, hmr, hregs, hacc, hrsp, hinputs, hdel, hiss, hres⟩ :=
    step_of_take_single hsame (ps := ps) rfl (congrArg (· ++ [w]) hq.accepted) hq.responses hm
  rw [hq.responses] at hmr
  have hissued : t.issued = s.issued ++ [{ word := w, fate := .answered r, resets := s.resets }] :=
    hiss.trans (answerOldest_append hq.settled r _)
  refine ⟨_, t, m, r, step_of_offer hq hin, htake, hinputs, hm, hmr, hregs, ⟨hacc, hrsp, ?_⟩, hdel, hissued, hres⟩
  rw [hissued]
  exact List.forall_mem_append.mpr ⟨hq.settled, List.forall_mem_singleton.mpr nofun⟩

/-! ### A program of a host that waits for each response -/

/-- The record of the program `ws` when it was answered `rs` in the era `k`. -/
def answeredProgram (k : Nat) (ws rs : List Word32) : List Issued :=
  (ws.zip rs).map fun p => { word := p.1, fate := .answered p.2, resets := k }

/-- From `s` to `t`, the program `ws` was issued and answered `rs`, as the sequential machine answers it in `e`. -/
structure State.Hosted (s : State) (ws rs : List Word32) (t e : State) : Prop where
  quiescent : t.Quiescent
  delivered : t.delivered = s.delivered ++ rs
  issued : t.issued = s.issued ++ answeredProgram s.resets ws rs
  resets : t.resets = s.resets
  performs : Performs ws s e
  responses : e.responses = rs
  length : rs.length = ws.length
  regs : e.SameRegs t

theorem hosted_program (ws : List Word32) {later : List PortIn} {s : State} (hq : s.Quiescent)
    (hin : s.inputs = hostScript ws ++ later) : ∃ rs t e,
    Host.Core.run Sys2Proof.core (2 * ws.length) s = .next t ∧ t.inputs = later ∧ s.Hosted ws rs t e := by
  induction ws generalizing s with
  | nil =>
    exact ⟨[], s, s, rfl, hin, hq, (List.append_nil _).symm, (List.append_nil _).symm, rfl, rfl, hq.responses, rfl,
      .refl s⟩
  | cons w ws ih =>
    obtain ⟨s₁, s₂, m, r, hoffer, htake, hinputs, hrun, hm, hregs, hans⟩ := hosted_command hq hin
    obtain ⟨rs, t, e', hrest, hlater, hhosted⟩ := ih hans.quiescent hinputs
    obtain ⟨e, he⟩ := performs_total ws m
    obtain ⟨hsame, qs, hqs, hqs'⟩ := hregs.performs he hhosted.performs
    rw [hans.quiescent.responses, hhosted.responses] at hqs'
    refine ⟨r :: rs, t, e, ?_, hlater, hhosted.quiescent, ?_, ?_, hhosted.resets.trans hans.resets, ⟨m, hrun, he⟩, ?_,
      congrArg (· + 1) hhosted.length, hsame.trans hhosted.regs⟩
    · exact (run_succ (2 * ws.length + 1) hoffer).trans ((run_succ (2 * ws.length) htake).trans hrest)
    · rw [hhosted.delivered, hans.delivered, List.append_assoc, List.singleton_append]
    · rw [hhosted.issued, hans.issued, hans.resets, List.append_assoc]
      rfl
    · rw [hqs, hm, hqs']
      rfl

/-! ### What R120 reads off the record of an answered program -/

theorem answeredProgram_words {ws rs : List Word32} (h : rs.length = ws.length) (k : Nat) :
    (answeredProgram k ws rs).map (·.word) = ws := by
  rw [answeredProgram, List.map_map]
  exact List.map_fst_zip h.ge

theorem answeredProgram_responses {ws rs : List Word32} (h : rs.length = ws.length) (k : Nat) :
    (answeredProgram k ws rs).filterMap Issued.response = rs := by
  rw [answeredProgram, List.filterMap_map]
  exact (congrFun List.filterMap_eq_map (ws.zip rs)).trans (List.map_snd_zip h.le)

theorem answeredProgram_length {ws rs : List Word32} (h : rs.length = ws.length) (k : Nat) :
    (answeredProgram k ws rs).length = ws.length := by
  rw [← List.length_map, answeredProgram_words h]

theorem forall_mem_answeredProgram (k : Nat) (ws rs : List Word32) :
    ∀ e ∈ answeredProgram k ws rs, e.resets = k ∧ ∃ r, e.fate = .answered r := by
  intro e he
  obtain ⟨p, -, rfl⟩ := List.mem_map.mp he
  exact ⟨rfl, p.2, rfl⟩

/-- The era of a program whose commands were all accepted in the era `k`. -/
theorem era_eq_of_forall {l : List Issued} {k : Nat} (h : ∀ e ∈ l, e.resets = k) :
    (l.getLast?.map (·.resets)).getD k = k := by
  cases hl : l.getLast? with
  | none => rfl
  | some e => exact h e (List.mem_of_getLast? hl)

theorem issuedSince_eq {s u : State} {program : List Issued} (h : s.issued ++ program <+: u.issued) :
    s.issuedSince u program.length = program := by
  obtain ⟨more, hmore⟩ := h
  rw [State.issuedSince, ← hmore, List.append_assoc, List.drop_left, List.take_left]

section Ended

variable {s t u e : State} {ws rs : List Word32} (h : s.Hosted ws rs t e) (hu : t.issued <+: u.issued)
include h hu

theorem State.Hosted.issuedSince_eq : s.issuedSince u ws.length = answeredProgram s.resets ws rs := by
  rw [← answeredProgram_length h.length s.resets]
  exact Machine.issuedSince_eq (h.issued ▸ hu)

theorem State.Hosted.programEnded : s.ProgramEnded ws u := by
  rw [State.ProgramEnded, h.issuedSince_eq hu]
  exact ⟨answeredProgram_words h.length _,
    fun last hlast => (forall_mem_answeredProgram _ _ _ last (List.mem_of_getLast? hlast)).2⟩

theorem State.Hosted.programFinal (hacc : s.accepted = []) : ProgramFinal ws s u e := by
  have hera := fun q hq => (forall_mem_answeredProgram s.resets ws rs q hq).1
  have hall : (answeredProgram s.resets ws rs).filter (·.resets = s.resets) = answeredProgram s.resets ws rs :=
    List.filter_eq_self.mpr fun q hq => decide_eq_true (hera q hq)
  simp only [ProgramFinal, h.issuedSince_eq hu, era_eq_of_forall hera, hall, answeredProgram_words h.length, hacc,
    List.nil_append, if_true]
  exact h.performs

theorem State.Hosted.observation_eq :
    s.observation ws u e = { responses := e.responses, errSticky := t.errSticky } := by
  obtain ⟨-, -, -, hsticky⟩ := h.regs
  rw [State.observation, h.issuedSince_eq hu, answeredProgram_responses h.length, h.responses, hsticky]

end Ended

/-! ### Answered entries stay -/

/-- A property that every step keeps holds along every run. -/
theorem run_keeps {P : State → Prop} (hstep : ∀ s t, P s → step s = .next t → P t) {n : Nat} {s t : State} (hs : P s)
    (hrun : Host.Core.run Sys2Proof.core n s = .next t) : P t := by
  induction n generalizing s with
  | zero =>
    cases hrun
    exact hs
  | succ n ih =>
    obtain ⟨m, hm⟩ := everyStepGoesOn s
    exact ih (hstep s m hs hm) ((run_succ n hm).symm.trans hrun)

theorem State.transfer_issued_prefix {l : List Issued} (hl : ∀ e ∈ l, e.fate ≠ .inFlight) {s : State}
    (h : l <+: s.issued) (p : PortIn) : l <+: (s.transfer p).issued := by
  have hdeliver : l <+: s.deliver.issued := by
    obtain ⟨more, hmore⟩ := h
    cases hs : s.responses with
    | nil => exact ⟨more, by rw [deliver_nil hs, hmore]⟩
    | cons r rs => exact ⟨answerOldest r more, by rw [deliver_cons hs, ← hmore, answerOldest_append hl]⟩
  obtain ht | ht | ht | ht := transfer_cases p s <;> rw [ht]
  · exact h
  · exact hdeliver
  · exact h.trans (List.prefix_append ..)
  · exact hdeliver.trans (List.prefix_append ..)

theorem State.hwReset_issued_prefix {l : List Issued} (hl : ∀ e ∈ l, e.fate ≠ .inFlight) {s : State}
    (h : l <+: s.issued) : l <+: s.hwReset.issued := by
  have hfixed : l.map Issued.discard = l :=
    (List.map_congr_left fun e he => if_neg (hl e he)).trans (List.map_id l)
  exact hfixed ▸ h.map Issued.discard

/-- Entries that are not in flight are written by nothing (R120). -/
theorem step_keeps_issued_prefix {l : List Issued} (hl : ∀ e ∈ l, e.fate ≠ .inFlight) {s t : State}
    (h : l <+: s.issued) (hstep : step s = .next t) : l <+: t.issued :=
  step_keeps (P := fun s => l <+: s.issued) (fun _ _ h => h)
    (fun _ _ h hperf => (performNext_sameHostSide hperf).issued ▸ h) (fun p _ h => State.transfer_issued_prefix hl h p)
    (fun _ h => State.hwReset_issued_prefix hl h) h hstep

/-! ### Any host: the record of words and eras -/

/-- What no answer and no discard changes of an issued command: its word and its era. -/
def Issued.entry (e : Issued) : Word32 × Nat := (e.word, e.resets)

/-- The words and eras of all commands issued so far. -/
def State.record (s : State) : List (Word32 × Nat) := s.issued.map Issued.entry

/-- The words of the era `k` in a record. -/
def eraWords (k : Nat) (l : List (Word32 × Nat)) : List Word32 := (l.filter (·.2 = k)).map (·.1)

theorem eraWords_append (k : Nat) (l l' : List (Word32 × Nat)) :
    eraWords k (l ++ l') = eraWords k l ++ eraWords k l' := by
  simp [eraWords]

theorem eraWords_of_era (k : Nat) (ws : List Word32) : eraWords k (ws.map (·, k)) = ws := by
  simp [eraWords, List.filter_map, Function.comp_def]

theorem eraWords_eq_nil {k : Nat} {l : List (Word32 × Nat)} (h : ∀ q ∈ l, q.2 < k) : eraWords k l = [] := by
  have hnone : l.filter (·.2 = k) = [] := List.filter_eq_nil_iff.mpr fun q hq => by simp [(h q hq).ne]
  rw [eraWords, hnone, List.map_nil]

theorem eraWords_map_entry (k : Nat) (l : List Issued) :
    eraWords k (l.map Issued.entry) = (l.filter (·.resets = k)).map (·.word) := by
  rw [eraWords, List.filter_map, List.map_map]
  rfl

theorem answerOldest_entry (r : Word32) (l : List Issued) :
    (answerOldest r l).map Issued.entry = l.map Issued.entry := by
  induction l with
  | nil => rfl
  | cons e es ih =>
    rw [answerOldest]
    split
    · rfl
    · rw [List.map_cons, List.map_cons, ih]

theorem discard_entry (e : Issued) : e.discard.entry = e.entry :=
  Prod.ext (discard_word e) (discard_resets e)

theorem State.deliver_record (s : State) : s.deliver.record = s.record := by
  cases hs : s.responses with
  | nil => rw [deliver_nil hs]
  | cons r rs =>
    rw [deliver_cons hs]
    exact answerOldest_entry r s.issued

theorem State.accept_record (w : Word32) (s : State) : (s.accept w).record = s.record ++ [(w, s.resets)] := by
  simp [State.record, Issued.entry]

theorem State.transfer_record (p : PortIn) (s : State) :
    (s.transfer p).record = s.record ++ (s.taken p).map (·, s.resets) := by
  simp only [State.transfer, State.taken]
  split <;> split <;> simp [State.accept_record, State.deliver_record]

theorem State.hwReset_record (s : State) : s.hwReset.record = s.record := by
  simp [State.record, discard_entry]

/-! ### Any host: the current era is sequential -/

/-- The state in which the era `k` of a run from `s` starts: a hardware reset leaves nothing of what came before it but
the host's side, which no command reads. -/
def State.eraStart (s : State) (k : Nat) : State := if k = s.resets then s else s.hwReset

/-- Along a run from `s`, by `t`: performing the commands of the current era, `words`, from its start comes in registers
to what performing the commands accepted at `t` comes to. -/
def State.EraSequential (s t : State) (words : List Word32) : Prop :=
  ∃ e f, Performs ((s.eraStart t.resets).accepted ++ words) (s.eraStart t.resets) e ∧ Performs t.accepted t f ∧
    e.SameRegs f

/-- The invariant of a run from `s`. -/
structure State.Follows (s t : State) : Prop where
  resets : s.resets ≤ t.resets
  era : ∃ l, t.record = s.record ++ l ∧ (∀ q ∈ l, q.2 ≤ t.resets) ∧ s.EraSequential t (eraWords t.resets l)

theorem State.Follows.refl (s : State) : s.Follows s := by
  obtain ⟨e, he⟩ := performs_total s.accepted s
  have hstart : s.eraStart s.resets = s := if_pos rfl
  refine ⟨le_rfl, [], (List.append_nil _).symm, fun _ h => absurd h List.not_mem_nil, e, e, ?_, he, .refl e⟩
  rw [hstart]
  exact (List.append_nil s.accepted).symm ▸ he

/-- A step of the sequential machine that accepts `taken` and records it in the current era keeps the invariant. -/
theorem State.Follows.sequential {s t u : State} {taken : List Word32} (h : s.Follows t) (hresets : u.resets = t.resets)
    (hrecord : u.record = t.record ++ taken.map (·, t.resets))
    (hseq : ∀ e f, Performs (t.accepted ++ taken) t e → Performs u.accepted u f → e.SameRegs f) : s.Follows u := by
  obtain ⟨hle, l, hl, hpast, e, f, he, hf, hef⟩ := h
  obtain ⟨e', he'⟩ := performs_total taken e
  obtain ⟨f', hf'⟩ := performs_total taken f
  obtain ⟨g, hg⟩ := performs_total u.accepted u
  obtain ⟨hef', -⟩ := hef.performs he' hf'
  have hfg := hseq f' g (performs_append.mpr ⟨f, hf, hf'⟩) hg
  refine ⟨hresets ▸ hle, l ++ taken.map (·, t.resets), ?_, ?_, ?_⟩
  · rw [hrecord, hl, List.append_assoc]
  · rw [hresets]
    exact List.forall_mem_append.mpr ⟨hpast, List.forall_mem_map.mpr fun _ _ => le_rfl⟩
  · rw [State.EraSequential, hresets, eraWords_append, eraWords_of_era, ← List.append_assoc]
    exact ⟨e', g, performs_append.mpr ⟨e, he, he'⟩, hg, hef'.trans hfg⟩

/-- A hardware reset starts a new era, in which nothing has been issued yet. -/
theorem State.Follows.hwReset {s t : State} (h : s.Follows t) (ps : List PortIn) :
    s.Follows (State.hwReset { t with inputs := ps }) := by
  obtain ⟨hle, l, hl, hpast, -⟩ := h
  have hstart : s.eraStart (t.resets + 1) = s.hwReset := if_neg (Nat.lt_succ_of_le hle).ne'
  have hnone : eraWords (t.resets + 1) l = [] := eraWords_eq_nil fun q hq => Nat.lt_succ_of_le (hpast q hq)
  refine ⟨hle.trans t.resets.le_succ, l, (State.hwReset_record _).trans hl,
    fun q hq => (hpast q hq).trans t.resets.le_succ, s.hwReset, _, ?_, rfl, rfl, rfl, rfl, rfl⟩
  rw [State.hwReset_resets, hstart, hnone]
  rfl

theorem State.Follows.step {s t u : State} (h : s.Follows t) (hstep : step t = .next u) : s.Follows u := by
  obtain ⟨-, hperf⟩ | ⟨p, ps, -, -, rfl⟩ | ⟨p, ps, m, -, -, hperf, rfl⟩ := step_next_cases hstep
  · obtain ⟨-, -, hiss, hres⟩ := performNext_sameHostSide hperf
    refine h.sequential (taken := []) hres ?_ fun e f he hf => ?_
    · rw [State.record, hiss, List.map_nil, List.append_nil, State.record]
    · exact (performNext_performs (vs := []) hperf he ((List.append_nil u.accepted).symm ▸ hf)).regs
  · exact h.hwReset ps
  · obtain ⟨-, -, hiss, hres⟩ := performNext_sameHostSide hperf
    refine h.sequential (taken := m.taken p) ((m.transfer_resets p).trans hres) ?_ fun e f he hf => ?_
    · rw [State.transfer_record, State.record, hiss, hres, State.record]
    · exact (cycle_performs hperf he hf).regs

/-- Once every accepted command is performed, the state is the end of the current era's program. -/
theorem State.Follows.programFinal {s t : State} (h : s.Follows t) (hacc : t.accepted = [])
    (hera : ((t.issued.drop s.issued.length).getLast?.map (·.resets)).getD s.resets = t.resets) :
    ∃ e, ProgramFinal ((t.issued.drop s.issued.length).map (·.word)) s t e ∧ e.SameRegs t := by
  obtain ⟨-, l, hl, -, e, f, he, hf, hef⟩ := h
  rw [hacc] at hf
  cases hf
  have hsince : s.issuedSince t ((t.issued.drop s.issued.length).map (·.word)).length =
      t.issued.drop s.issued.length := by
    rw [State.issuedSince, List.length_map, List.take_length]
  have hwords : ((t.issued.drop s.issued.length).filter (·.resets = t.resets)).map (·.word) = eraWords t.resets l := by
    have hdrop : (t.issued.drop s.issued.length).map Issued.entry = l := by
      have hlen : s.issued.length = s.record.length := (List.length_map ..).symm
      calc (t.issued.drop s.issued.length).map Issued.entry
        _ = t.record.drop s.record.length := hlen ▸ List.map_drop
        _ = l := by rw [hl, List.drop_left]
    rw [← eraWords_map_entry, hdrop]
  refine ⟨e, ?_, hef⟩
  simp only [ProgramFinal, hsince, hera, hwords]
  split
  case isTrue hsame =>
    rwa [State.eraStart, if_pos hsame] at he
  case isFalse hnew =>
    rwa [State.eraStart, if_neg hnew, State.hwReset_accepted, List.nil_append] at he

/-- Settles O59: a program of a waiting host is answered command by command and its record stays; and along any run the
current era stays sequential. -/
theorem hostedRunIsSequential : Obligations.HostedRunIsSequential := by
  refine ⟨fun ws later s hmatch hacc hrsp hin => ?waiting, ?any⟩
  case waiting =>
    obtain ⟨rs, t, e, hrun, hlater, h⟩ := hosted_program ws (hmatch.quiescent hacc hrsp) hin
    have hself : t.issued <+: t.issued := List.prefix_rfl
    refine ⟨t, e, hrun, hlater, h.programFinal hself hacc, h.regs, h.programEnded hself, h.responses ▸ h.delivered,
      h.responses ▸ h.length, fun m u hmore => ?_⟩
    have hkept : t.issued <+: u.issued :=
      run_keeps (P := fun u => t.issued <+: u.issued)
        (fun _ _ hu hstep => step_keeps_issued_prefix h.quiescent.settled hu hstep) hself hmore
    exact ⟨h.programEnded hkept, h.programFinal hkept hacc, h.observation_eq hkept⟩
  case any =>
    intro n s t hrun hacc issued hera
    exact (run_keeps (P := s.Follows) (fun _ _ h hstep => h.step hstep) (.refl s) hrun).programFinal hacc hera

end Sys2Proof.Machine
